-- ==== Sys2Proof/Word.lean ====
section
/-! DEFINITION. The words and line levels of the display/relay block, with the numbering of bits of rule R8
(00_scope.md): bit 0 is the least significant bit. -/
namespace Sys2Proof

/-- An 8-bit value: a segment code, a character code, a byte shifted out (R7 `SEG_W`, R102, R136). -/
abbrev Byte := BitVec 8

/-- A 16-bit value: a command word (R60), the shift chain and the output latch (R7 `CHAIN_W`, R28, R29). -/
abbrev Word := BitVec 16

/-- A 10-bit ADC sample, 0..1023 (R7 `ADC_BITS`, R63, R170). -/
abbrev Sample := BitVec 10

/-- A 2-bit slot number, 0..3; every value names a slot (R44, R63). -/
abbrev Slot := BitVec 2

/-- The level of one line: `false` is 0, `true` is 1 (R9, R27). -/
abbrev Level := Bool

end Sys2Proof
end

