-- ==== Sys2Proof/Config.lean ====
section
/-! DEFINITION. What is fixed for a machine: the parameters of R7 (00_scope.md) with the source's values as defaults, the
host's own parameters, and the free values for what the spec states no result for. -/
namespace Sys2Proof

/-- The block's parameters (R7). R32: they are configuration, which no operation writes. The widths of R7's table
(`N_SLOTS`, `SEG_W`, `CHAIN_W`, `ADC_BITS`) are types of the model, no fields. -/
structure Params where
  /-- `SEL(0..3)`, the digit-select bytes (R7). R151 gives their values, which `Params.SelectsOneHot` says (assumption
  log entry 19). -/
  sel : Vector Byte 4
  /-- `SEG_DIGIT[0..9]`, the codes of the ten digits (R7, R101). -/
  segDigit : Vector Byte 10
  /-- `SEG_BLANK` (R7, R101). -/
  segBlank : Byte
  /-- `SEG_DP`, the decimal-point-only code (R7, R101, R104). -/
  segDp : Byte
  /-- `SEG_DASH` (R7, R101). -/
  segDash : Byte
  /-- `ADC_FULL`, the sample that stands for the reference voltage (R7). -/
  adcFull : Nat
  /-- `V_REF` in volts (R7). -/
  vRef : Rat
  /-- `V_MIN` in volts (R7). -/
  vMin : Rat
  /-- `V_MAX` in volts (R7). -/
  vMax : Rat
  /-- `P_MAX` in the source's pressure unit (R7). -/
  pMax : Rat
  /-- `LOW_PRESSURE`, the turn-on threshold (R7, R181). -/
  lowPressure : Rat
  /-- `HIGH_PRESSURE`, the turn-off threshold (R7, R181). -/
  highPressure : Rat
  /-- `SETTLE_ON_MS` (R7, R187); 0 is allowed. -/
  settleOnMs : Nat
  /-- `SETTLE_OFF_MS` (R7, R187); 0 is allowed. -/
  settleOffMs : Nat
  /-- `SETTLE_ON_SELF_LOOP`: does a relay write that keeps the level settle (R7 OPEN, R187)? -/
  settleOnSelfLoop : Bool
  /-- `FAILSAFE_OOB`: does an out-of-band sample force the pump off (R7, R182)? -/
  failsafeOob : Bool
  /-- `RELAY_ACTIVE_HIGH`: the level that asserts the relay line (R7 OPEN, R26). -/
  relayActiveHigh : Bool
  deriving DecidableEq, Repr

/-- The defaults of R7. The codes of 1 and 3..9 are the spec's general knowledge, no fact of the source
(assumption log entry 6). -/
def Params.default : Params where
  sel := #v[0x01, 0x02, 0x04, 0x08]
  segDigit := #v[0xC0, 0xF9, 0xA4, 0xB0, 0x99, 0x92, 0x82, 0xF8, 0x80, 0x90]
  segBlank := 0xFF
  segDp := 0x7F
  segDash := 0xBF
  adcFull := 1023
  vRef := 5
  vMin := 1 / 2
  vMax := 9 / 2
  pMax := 6 / 5
  lowPressure := 17 / 100
  highPressure := 27 / 100
  settleOnMs := 1000
  settleOffMs := 10
  settleOnSelfLoop := true
  failsafeOob := false
  relayActiveHigh := true

/-- `HOST_FORMAT`: how the host writes a pressure as text. OPEN in R7; no operation of the block depends on it. -/
structure HostFormat where
  /-- The number of characters. -/
  width : Nat
  /-- The number of characters after the point. -/
  precision : Nat
  /-- Is the dash meant for negative pressures? OPEN (R117, U12, D26); the block gives it no meaning
  (assumption log entry 20). -/
  dashForNegative : Bool
  deriving DecidableEq, Repr

/-- The parameters of the host's main loop (R7 rows marked host, R71) and the rates R241 lists beside them. No rule of the
block depends on them; the two rates are kept for documentation only, as R241 says. -/
structure HostParams where
  /-- `REFRESH_REPEAT`, how often the loop refreshes between two control steps. -/
  refreshRepeat : Nat
  /-- `LOOP_SLEEP_MS`. -/
  loopSleepMs : Nat
  /-- The refresh rate needed, in full cycles a second: at least this many (R241, R238). -/
  minRefreshRate : Nat
  /-- The low end of the sampling rate wanted, in Hz (R241). -/
  minSamplingRate : Nat
  /-- The high end of the sampling rate wanted, in Hz (R241). -/
  maxSamplingRate : Nat
  /-- `HOST_FORMAT`. -/
  format : HostFormat
  deriving DecidableEq, Repr

/-- The source's main loop for any host format: the format is OPEN, so it is an argument (R7, R241). -/
def HostParams.ofFormat (format : HostFormat) : HostParams where
  refreshRepeat := 10000
  loopSleepMs := 50
  minRefreshRate := 60
  minSamplingRate := 1
  maxSamplingRate := 10
  format := format

/-- FREE VALUE (assumption log entry 8): the voltage of a sample when `ADC_FULL = 0`, an ill-formed parameter for which
R171's quotient has no stated value. Nothing constrains it. -/
opaque Config.unstatedVolts : Params → Sample → Rat

/-- FREE VALUE (assumption log entry 8): the pressure of a sample when `V_MAX = V_MIN`, an ill-formed pair for which
R171's quotient has no stated value. Nothing constrains it. -/
opaque Config.unstatedPressure : Params → Sample → Rat

end Sys2Proof
end

