-- ==== Sys2Proof/Syntax.lean ====
section
/-! DEFINITION. The operations of the block, one constructor for each row of spec/opcode_table.json (R65), with the
operand fields of R63. FMT's string is on the string port and no part of the command (R60, R64). -/
namespace Sys2Proof

/-- The eleven operations a host can issue (R65). -/
inductive Instr where
  /-- ENC: encode one character (R103). -/
  | enc (c : Byte)
  /-- FMT: fill the display buffer from the string port (R110). -/
  | fmt
  /-- SETD: drive the data line (R133). -/
  | setd (v : Level)
  /-- SETC: drive the clock line (R134). -/
  | setc (v : Level)
  /-- SETL: drive the latch line (R135). -/
  | setl (v : Level)
  /-- PUSH: shift one byte out, most significant bit first (R136). -/
  | push (b : Byte)
  /-- LATCH: one latch pulse (R137). -/
  | latch
  /-- RDIG: refresh one digit (R150). -/
  | rdig (j : Slot)
  /-- RCYC: one full refresh cycle (R152). -/
  | rcyc
  /-- CTRL: one controller step, from a sample and the flow level (R185). -/
  | ctrl (smp : Sample) (f : Level)
  /-- CONV: convert a sample to pressure (R171). -/
  | conv (smp : Sample)
  deriving DecidableEq, Repr

end Sys2Proof
end

