-- ==== Sys2Proof/WellFormed.lean ====
section
/-! DEFINITION. Well-formedness. Every operand of an operation has exactly the width of its field and every value of a field
is legal (R63, R67), so the checks that can fail are those on the parameters (R7, R101, R104, R151). -/
namespace Sys2Proof

/-- Every value of every operand field names a legal command (R63, R67): the operands' types leave nothing to refuse. -/
def Instr.wellFormed : Instr → Bool
  | .enc _ => true
  | .fmt => true
  | .setd _ => true
  | .setc _ => true
  | .setl _ => true
  | .push _ => true
  | .latch => true
  | .rdig _ => true
  | .rcyc => true
  | .ctrl _ _ => true
  | .conv _ => true

/-- R7: `LOW_PRESSURE < HIGH_PRESSURE`. -/
abbrev Params.ThresholdsOrdered (p : Params) : Prop := p.lowPressure < p.highPressure

/-- R7: `V_MIN < V_MAX`. -/
abbrev Params.BandOrdered (p : Params) : Prop := p.vMin < p.vMax

/-- R7: `P_MAX > 0`. -/
abbrev Params.ScalePositive (p : Params) : Prop := 0 < p.pMax

/-- R7: `ADC_FULL > 0`. -/
abbrev Params.FullScalePositive (p : Params) : Prop := 0 < p.adcFull

/-- R7, R101: every `SEG_DIGIT[k]` has bit 7 set (the decimal point dark). -/
abbrev Params.DigitsDark (p : Params) : Prop := ∀ k : Fin 10, p.segDigit[k].getLsbD 7 = true

/-- R104 on the other three glyphs: blank and dash have bit 7 set; `SEG_DP` lights bit 7 and nothing else.
DEDUCED (assumption log entry 7): R7's list names only `SEG_DIGIT`, R104 states it of every glyph code. -/
abbrev Params.PointDisjoint (p : Params) : Prop :=
  p.segBlank.getLsbD 7 = true ∧ p.segDash.getLsbD 7 = true ∧ p.segDp = 0x7F

/-- R151: `SEL(j) = 1 << j`, so exactly one of bits 0..3 is set and bits 4..7 are 0 (DEDUCED, assumption log entry 19: R7 makes
`SEL` a parameter, and its list of conditions does not name it). -/
abbrev Params.SelectsOneHot (p : Params) : Prop := ∀ j : Slot, p.sel[j.toNat] = 1#8 <<< j.toNat

/-- The well-formed parameters (R7, R104, R151). No operation needs them: an ill-formed machine runs too (R183, D25). -/
abbrev Params.WellFormed (p : Params) : Prop :=
  p.ThresholdsOrdered ∧ p.BandOrdered ∧ p.ScalePositive ∧ p.FullScalePositive ∧ p.DigitsDark ∧ p.PointDisjoint ∧
    p.SelectsOneHot

end Sys2Proof
end

