-- ==== Sys2Proof/Decode.lean ====
section
/-! DEFINITION. The command word (30_encoding.md): the decoder, total over all 65536 words (R66), and after it the encoder,
written from the same formats (R62) and opcode map (R65). -/
namespace Sys2Proof

/-- Why a word decodes to no operation (R66, R201). Not a stop of the machine: the block records it and goes on. -/
inductive CommandFault where
  /-- `w[15:12]` is an unassigned operation code. -/
  | illegalOpcode
  /-- The operation code is assigned and a reserved bit of its format is 1. -/
  | reservedField
  deriving DecidableEq, Repr

/-- The code of a fault in the response and of the `FAULT` field; NONE is 0 (R201). -/
def faultCode : Option CommandFault → Nat
  | none => 0
  | some .illegalOpcode => 1
  | some .reservedField => 2

/-- The assigned operation codes, the rows of R65. -/
inductive Op where
  | enc | fmt | setd | setc | setl | push | latch | rdig | rcyc | ctrl | conv
  deriving DecidableEq, Repr

/-- R65: the operation of an operation code; `none` for `0x0` and `0xC`..`0xF`. -/
def opOf (code : BitVec 4) : Option Op :=
  match code.toNat with
  | 0x1 => some .enc
  | 0x2 => some .fmt
  | 0x3 => some .setd
  | 0x4 => some .setc
  | 0x5 => some .setl
  | 0x6 => some .push
  | 0x7 => some .latch
  | 0x8 => some .rdig
  | 0x9 => some .rcyc
  | 0xA => some .ctrl
  | 0xB => some .conv
  | _ => none

/-- R65: the `match` column. -/
def Op.matchWord : Op → Word
  | .enc => 0x1000
  | .fmt => 0x2000
  | .setd => 0x3000
  | .setc => 0x4000
  | .setl => 0x5000
  | .push => 0x6000
  | .latch => 0x7000
  | .rdig => 0x8000
  | .rcyc => 0x9000
  | .ctrl => 0xA000
  | .conv => 0xB000

/-- R65: the `mask` column. -/
def Op.mask : Op → Word
  | .enc => 0xFF00
  | .fmt => 0xFFFF
  | .setd => 0xFFFE
  | .setc => 0xFFFE
  | .setl => 0xFFFE
  | .push => 0xFF00
  | .latch => 0xFFFF
  | .rdig => 0xFFFC
  | .rcyc => 0xFFFF
  | .ctrl => 0xF400
  | .conv => 0xFC00

/-- `CMD[7:0]`: the character of ENC, the byte of PUSH (R63). -/
def byteField (w : Word) : Byte := w.extractLsb' 0 8

/-- `CMD[0]`: the level of SETD, SETC and SETL (R63). -/
def levelField (w : Word) : Level := w.getLsbD 0

/-- `CMD[1:0]`: the slot of RDIG (R63). -/
def slotField (w : Word) : Slot := w.extractLsb' 0 2

/-- `CMD[9:0]`: the sample of CTRL and CONV (R63). -/
def sampleField (w : Word) : Sample := w.extractLsb' 0 10

/-- `CMD[11]`: the flow level of CTRL (R63). -/
def flowField (w : Word) : Level := w.getLsbD 11

/-- The operation with the operands of R63 taken from the word. -/
def Op.withFields (o : Op) (w : Word) : Instr :=
  match o with
  | .enc => .enc (byteField w)
  | .fmt => .fmt
  | .setd => .setd (levelField w)
  | .setc => .setc (levelField w)
  | .setl => .setl (levelField w)
  | .push => .push (byteField w)
  | .latch => .latch
  | .rdig => .rdig (slotField w)
  | .rcyc => .rcyc
  | .ctrl => .ctrl (sampleField w) (flowField w)
  | .conv => .conv (sampleField w)

/-- R66: the operation code decides first, then the reserved bits. -/
def decode (w : Word) : Except CommandFault Instr :=
  match opOf (w.extractLsb' 12 4) with
  | none => .error .illegalOpcode
  | some o => if w &&& o.mask = o.matchWord then .ok (o.withFields w) else .error .reservedField

/-- R67: the legal words. -/
def legalWord (w : Word) : Bool :=
  match decode w with
  | .ok _ => true
  | .error _ => false

/-- The row of R65 an operation belongs to. -/
def Instr.op : Instr → Op
  | .enc _ => .enc
  | .fmt => .fmt
  | .setd _ => .setd
  | .setc _ => .setc
  | .setl _ => .setl
  | .push _ => .push
  | .latch => .latch
  | .rdig _ => .rdig
  | .rcyc => .rcyc
  | .ctrl _ _ => .ctrl
  | .conv _ => .conv

/-- The word of an operation, field by field from the most significant bit as R62's patterns have it. -/
def encode : Instr → Word
  | .enc c => 0x1#4 ++ 0#4 ++ c
  | .fmt => 0x2#4 ++ 0#12
  | .setd v => 0x3#4 ++ 0#11 ++ BitVec.ofBool v
  | .setc v => 0x4#4 ++ 0#11 ++ BitVec.ofBool v
  | .setl v => 0x5#4 ++ 0#11 ++ BitVec.ofBool v
  | .push b => 0x6#4 ++ 0#4 ++ b
  | .latch => 0x7#4 ++ 0#12
  | .rdig j => 0x8#4 ++ 0#10 ++ j
  | .rcyc => 0x9#4 ++ 0#12
  | .ctrl smp f => 0xA#4 ++ BitVec.ofBool f ++ 0#1 ++ smp
  | .conv smp => 0xB#4 ++ 0#2 ++ smp

/-- The command word whose bits the opcode table numbers as `w`, of which `nbits` are given and the rest are 0. Every
command is one 16-bit word (R60). -/
def tableWord (nbits w : Nat) : Word := BitVec.ofNat 16 (w % 2 ^ nbits)

/-- What the decoder reads from the instruction whose bits are `w` (for the host). -/
def decodeTableWord (nbits w : Nat) : Option Instr :=
  match decode (tableWord nbits w) with
  | .ok i => some i
  | .error _ => none

end Sys2Proof
end

