-- ==== Sys2Proof/Machine/State.lean ====
section
/-! DEFINITION. The state of the block (10_state.md R20, every element), the interface to the host (the commands it has
issued, the string port, the responses: R6, R11, R64, R240), the reasons a step could stop, and the state after reset. -/
namespace Sys2Proof.Machine

/-- R25: `PUMP` is Off or On. The same two names are the levels the controller writes to the relay line (R186). -/
inductive PumpState where
  | off
  | on
  deriving DecidableEq, Repr

/-- One write of the relay line with the settle after it (R186, R187). -/
structure RelayWrite where
  /-- The state the line is driven to: `on` asserts it. -/
  level : PumpState
  /-- The settle the host waits out, in milliseconds; it changes no state. -/
  settleMs : Nat
  deriving DecidableEq, Repr

/-- One event of a response (R9 `emit`, R11). -/
inductive Event where
  /-- The segment code ENC returns (R103). -/
  | code (c : Byte)
  /-- The pressure CONV returns, an exact rational (R10, R171). -/
  | pressure (p : Rat)
  /-- One entry of the latch trace: `Q` after a rising edge of `LAT` (R132). -/
  | latched (q : Word)
  /-- The record of a controller step: `PUMP` after it, and the relay writes in order, each with its settle (R185..R187). -/
  | control (pump : PumpState) (writes : List RelayWrite)
  /-- The fault record of an illegal command: its code and the word (R201). -/
  | fault (f : CommandFault) (word : Word)
  deriving DecidableEq, Repr

/-- A command as the host issues it: the word, and the string it puts on the string port (R60, R64). -/
structure Command where
  /-- The command word. -/
  word : Word
  /-- The string on the port; only FMT reads it. -/
  str : List Byte
  deriving DecidableEq, Repr

/-- The state. The eight fields after `params` are R20's elements; the last four are the host interface, the model's own
fields (assumption log entries 2, 3 and 4). -/
structure State where
  /-- The configuration the machine was built with (R7, R32): no operation writes it (assumption log entry 5). -/
  params : Params
  /-- `BUF[0..3]`, the display buffer, slot 0 rightmost (R22, R24). -/
  buf : Vector Byte 4
  /-- `PUMP` (R25). The relay line is derived from it (R26). -/
  pump : PumpState
  /-- `CHAIN`, the 16 serial stages; bit 0 is nearest the data input (R28). -/
  chain : Word
  /-- `Q`, the 16 latched outputs (R29). -/
  q : Word
  /-- The level of the line `DATA` (R27). -/
  data : Level
  /-- The level of the line `CLK` (R27). -/
  clk : Level
  /-- The level of the line `LAT` (R27). -/
  lat : Level
  /-- `FAULT`, the first illegal command's fault; `none` is NONE (R30). -/
  fault : Option CommandFault
  /-- The string on the string port for the command being performed (R64). -/
  strPort : List Byte
  /-- The commands the host has issued and the block has not started, oldest first (R6). -/
  pending : List Command
  /-- The events the command being performed has emitted, in order (R9, R11). -/
  response : List Event
  /-- The responses of the completed commands, oldest first (R240). -/
  responses : List (List Event)
  deriving DecidableEq, Repr

/-- The reasons a step could stop. There is none: "No behaviour of the block is stuck: every operation completes, and the
block never halts by itself" (93_implementation_defined.md; R200, R240), and an illegal command is recorded in the state
(R201), after which the block goes on (R202). Nothing raises a fault of this type. -/
inductive Fault where
  deriving DecidableEq, Repr

/-- The reasons a step could refuse. -/
inductive Refusal where
  /-- Raised by an arm of `exec` whose instruction has no meaning. Safe: a claim about it becomes unprovable. No arm of this
  model raises it. -/
  | notModelled (mnemonic : String)
  deriving DecidableEq, Repr

/-- What a step answers. -/
abbrev Result := Host.Outcome State Fault Refusal

/-- One draw of the five elements R34 leaves unspecified at reset. -/
structure ResetDraw where
  chain : Word
  q : Word
  data : Level
  clk : Level
  lat : Level
  deriving DecidableEq, Repr

/-- The machine with parameters `p` right after power-on (R34, R220, R221), for every draw of the unspecified elements. -/
def State.powerOn (p : Params) (d : ResetDraw) : State where
  params := p
  buf := #v[0xFF, 0xFF, 0xFF, 0xFF]
  pump := .off
  chain := d.chain
  q := d.q
  data := d.data
  clk := d.clk
  lat := d.lat
  fault := none
  strPort := []
  pending := []
  response := []
  responses := []

/-- DESIGN CHOICE (assumption log entry 1, unsafe): the one draw `State.reset` takes, all zeros. R34 leaves the draw free; a
claim about reset is stated over `State.powerOn` for every draw. -/
def ResetDraw.zeros : ResetDraw where
  chain := 0
  q := 0
  data := false
  clk := false
  lat := false

/-- The machine right after reset, with the default parameters (R7) and the draw the log names. -/
def State.reset : State := State.powerOn Params.default ResetDraw.zeros

/-! The updates of one field each. -/

/-- `BUF[0..3] <- b`, one indivisible write (R45). -/
def State.setBuf (s : State) (b : Vector Byte 4) : State := { s with buf := b }

/-- `PUMP <- v`. -/
def State.setPump (s : State) (v : PumpState) : State := { s with pump := v }

/-- `CHAIN <- v`. -/
def State.setChain (s : State) (v : Word) : State := { s with chain := v }

/-- `Q <- v`. -/
def State.setQ (s : State) (v : Word) : State := { s with q := v }

/-- `DATA <- v`. -/
def State.setData (s : State) (v : Level) : State := { s with data := v }

/-- `CLK <- v`, the level alone. -/
def State.setClk (s : State) (v : Level) : State := { s with clk := v }

/-- `LAT <- v`, the level alone. -/
def State.setLat (s : State) (v : Level) : State := { s with lat := v }

/-- `FAULT <- v`. -/
def State.setFault (s : State) (v : Option CommandFault) : State := { s with fault := v }

/-- `emit(e)`: append an event to the response of the command being performed (R9). -/
def State.emit (s : State) (e : Event) : State := { s with response := s.response ++ [e] }

end Sys2Proof.Machine
end

