-- ==== Sys2Proof/Machine/Ops.lean ====
section
/-! DEFINITION. The operations the meanings share: the display buffer, the three lines of the bus with the shift chain and the
output latch (43_shift_register_bus.md), the byte push and the latch pulse, the record of an illegal command (R201), and how a
command is taken from the host and finished. -/
namespace Sys2Proof.Machine

/-- `BUF[j]`, one whole slot (R9, R44). -/
def readSlot (s : State) (j : Slot) : Byte := s.buf[j.toNat]

/-- R131: `CHAIN[14:0] : DATA`; `CHAIN[15]` is lost. -/
def shiftIn (chain : Word) (d : Level) : Word := chain.extractLsb' 0 15 ++ BitVec.ofBool d

/-- R133: drive `DATA`. Neither the chain nor the latch sees it before an edge. -/
def driveData (v : Level) (s : State) : State := s.setData v

/-- R134: drive `CLK`; a change from 0 to 1 shifts `DATA` into the chain (R131). -/
def driveClock (v : Level) (s : State) : State :=
  if s.clk = false ∧ v = true then (s.setClk v).setChain (shiftIn s.chain s.data) else s.setClk v

/-- R135: drive `LAT`; a change from 0 to 1 copies the chain to the outputs and appends them to the latch trace (R132). -/
def driveLatch (v : Level) (s : State) : State :=
  if s.lat = false ∧ v = true then ((s.setLat v).setQ s.chain).emit (.latched s.chain) else s.setLat v

/-- One round of R136: the data line before the clock rises (R138), then `CLK` low and high. -/
def shiftBit (v : Level) (s : State) : State := driveClock true (driveClock false (driveData v s))

/-- R136: the bits of `b` from bit 7 down to bit 0 (R41). -/
def pushByte (b : Byte) (s : State) : State :=
  [7, 6, 5, 4, 3, 2, 1, 0].foldl (fun t k => shiftBit (b.getLsbD k) t) s

/-- R137: `LAT` low, then high. -/
def latchPulse (s : State) : State := driveLatch true (driveLatch false s)

/-- `SEL(j)`, the digit-select byte of a slot: a parameter (R7), whose value R151 gives. -/
def sel (p : Params) (j : Slot) : Byte := p.sel[j.toNat]

/-- R150: the slot is read once, before any line is driven; the segment byte goes out first, the select byte second, and one
latch pulse follows both (R42, C3). -/
def refreshDigit (j : Slot) (s : State) : State :=
  latchPulse (pushByte (sel s.params j) (pushByte (readSlot s j) s))

/-- R152: the four digits in the order slot 0, 1, 2, 3. -/
def refreshCycle (s : State) : State :=
  refreshDigit 3 (refreshDigit 2 (refreshDigit 1 (refreshDigit 0 s)))

/-- R201, R202: an illegal command. The first fault is recorded and stays; the response carries this command's fault and word;
nothing else changes. This is the block's whole "exception entry": there is no trap, vector or saved state (R206), and so no
return from one (R207). -/
def recordIllegal (f : CommandFault) (w : Word) (s : State) : State :=
  (match s.fault with
    | none => s.setFault (some f)
    | some _ => s).emit (.fault f w)

/-- The state in which a command is performed: it has left the queue, its string is on the port (R64), and its response is
empty. -/
def beginCommand (c : Command) (rest : List Command) (s : State) : State :=
  { s with pending := rest, strPort := c.str, response := [] }

/-- The next command in issue order (R6) and the state in which it is performed; `none` when the host has issued none. -/
def nextCommand (s : State) : Option (Command × State) :=
  match s.pending with
  | [] => none
  | c :: rest => some (c, beginCommand c rest s)

/-- The operation boundary: the response joins those of the run (R240), and the operand string is gone (R33). -/
def finishCommand (s : State) : State :=
  { s with responses := s.responses ++ [s.response], response := [], strPort := [] }

/-- The operation boundary after an outcome. -/
def finishOutcome : Result → Result
  | .next t => .next (finishCommand t)
  | .fault r => .fault r
  | .refused r => .refused r

/-- With no command issued the block waits and keeps its state: no operation runs by itself (R155), and the block never stops
by itself (R240). -/
def idle (s : State) : Result := .next s

/-- The host issues commands (R242): they are performed after those already issued, in order (R6). -/
def issue (cs : List Command) (s : State) : State := { s with pending := s.pending ++ cs }

end Sys2Proof.Machine
end

