-- ==== Sys2Proof/Machine/DisplayBus.lean ====
section
/-! DEFINITION. The line operations, the byte push and the latch pulse (43_shift_register_bus.md). -/
namespace Sys2Proof.Machine

/-- SETD (R133). -/
def execSetd (v : Level) (s : State) : Result := .next (driveData v s)

/-- SETC (R134). -/
def execSetc (v : Level) (s : State) : Result := .next (driveClock v s)

/-- SETL (R135). -/
def execSetl (v : Level) (s : State) : Result := .next (driveLatch v s)

/-- PUSH (R136): no latch (C3). -/
def execPush (b : Byte) (s : State) : Result := .next (pushByte b s)

/-- LATCH (R137). -/
def execLatch (s : State) : Result := .next (latchPulse s)

end Sys2Proof.Machine
end

