-- ==== Sys2Proof/Machine/DisplayMultiplexer.lean ====
section
/-! DEFINITION. The display multiplexer (44_display_multiplexer.md). -/
namespace Sys2Proof.Machine

/-- RDIG (R150). -/
def execRdig (j : Slot) (s : State) : Result := .next (refreshDigit j s)

/-- RCYC (R152). -/
def execRcyc (s : State) : Result := .next (refreshCycle s)

end Sys2Proof.Machine
end

