-- ==== Sys2Proof/Machine/Operands.lean ====
section
/-! DEFINITION. The operands that are no fields of the command word as they stand: the string of FMT (R64, R111) and the
quantities a sample stands for (45_pressure_front_end.md). The fields themselves are taken apart in Decode (R63). -/
namespace Sys2Proof.Machine

/-- R111: the string up to, not including, its first `0x00`. -/
def effectiveString (str : List Byte) : List Byte := str.takeWhile (· ≠ 0x00#8)

/-- R111: the source FMT scans, last character first. -/
def scanSource (str : List Byte) : List Byte := (effectiveString str).reverse

/-- R171: `volts(s) = s * V_REF / ADC_FULL`, exact (R10). With `ADC_FULL = 0`, which R7 calls ill-formed, the quotient has no
stated value and is a free one (assumption log entry 8). -/
def volts (p : Params) (smp : Sample) : Rat :=
  if p.adcFull = 0 then Config.unstatedVolts p smp else (smp.toNat : Rat) * p.vRef / (p.adcFull : Rat)

/-- R171: `pressure(s) = (volts(s) - V_MIN) / (V_MAX - V_MIN) * P_MAX`, exact (R10, R176) and not clamped (R173). With
`V_MAX = V_MIN`, which R7 calls ill-formed, it is a free value (assumption log entry 8). -/
def pressure (p : Params) (smp : Sample) : Rat :=
  if p.vMax = p.vMin then Config.unstatedPressure p smp
  else (volts p smp - p.vMin) / (p.vMax - p.vMin) * p.pMax

/-- R172: the sample's voltage lies outside the calibrated band. -/
def outOfBand (p : Params) (smp : Sample) : Bool :=
  decide (volts p smp < p.vMin) || decide (p.vMax < volts p smp)

end Sys2Proof.Machine
end

