-- ==== Sys2Proof/Machine/Flags.lean ====
section
/-! DEFINITION. The condition signals of the controller (R181, R182). The block has no flags (R31): these exist only during one
CTRL and are no state. -/
namespace Sys2Proof.Machine

/-- The condition signals of one CTRL. -/
structure Conditions where
  /-- `LOWP = (p < LOW_PRESSURE)`, strict (R181). -/
  lowp : Bool
  /-- `HIGHP = (p > HIGH_PRESSURE)`, strict (R181). -/
  highp : Bool
  /-- `F = (f == 1)`, flow present (R180, R181). -/
  flow : Bool
  /-- `OOB = FAILSAFE_OOB and outofband(s)` (R182). -/
  oob : Bool
  deriving DecidableEq, Repr

/-- R181, R182: the signals, computed once from the sample and the flow level. -/
def conditions (p : Params) (smp : Sample) (f : Level) : Conditions where
  lowp := decide (pressure p smp < p.lowPressure)
  highp := decide (p.highPressure < pressure p smp)
  flow := f
  oob := p.failsafeOob && outOfBand p smp

end Sys2Proof.Machine
end

