-- ==== Sys2Proof/Machine/HysteresisController.lean ====
section
/-! DEFINITION. The hysteresis controller with its flow interlock (46_hysteresis_controller.md). -/
namespace Sys2Proof.Machine

/-- R183 `on_fire`: low pressure and flow, and no out-of-band gate. -/
def onFire (c : Conditions) : Bool := c.lowp && c.flow && !c.oob

/-- R183 `off_fire`: high pressure or no flow or the out-of-band gate. -/
def offFire (c : Conditions) : Bool := c.highp || !c.flow || c.oob

/-- R183: the turn-on rule first, the turn-off rule second and unconditionally, so that it overrides. -/
def nextPump (c : Conditions) (before : PumpState) : PumpState :=
  let turnedOn := if onFire c then .on else before
  if offFire c then .off else turnedOn

/-- R187: the settle of a write of `level` to a line that stands at `line`; with `SETTLE_ON_SELF_LOOP` false a write that keeps
the line's level has a settle of 0. -/
def settleMs (p : Params) (line level : PumpState) : Nat :=
  if p.settleOnSelfLoop = false ∧ level = line then 0
  else match level with
    | .on => p.settleOnMs
    | .off => p.settleOffMs

/-- R186 `relay_write(level)`: from the line's level and the writes so far to the level and the writes after it. -/
def relayWrite (p : Params) (level : PumpState) (r : PumpState × List RelayWrite) : PumpState × List RelayWrite :=
  (level, r.2 ++ [⟨level, settleMs p r.1 level⟩])

/-- R185, R186: each rule that fires writes the relay line, in the rules' order. The line stands at `before` when the step
starts (R26). -/
def relayWrites (p : Params) (c : Conditions) (before : PumpState) : PumpState × List RelayWrite :=
  let afterOn := if onFire c then relayWrite p .on (before, []) else (before, [])
  if offFire c then relayWrite p .off afterOn else afterOn

/-- CTRL (R185): one controller step. -/
def execCtrl (smp : Sample) (f : Level) (s : State) : Result :=
  let c := conditions s.params smp f
  let after := nextPump c s.pump
  .next ((s.setPump after).emit (.control after (relayWrites s.params c s.pump).2))

end Sys2Proof.Machine
end

