-- ==== Sys2Proof/Machine/SegmentEncoder.lean ====
section
/-! DEFINITION. The segment encoder (41_segment_encoder.md): the code table and ENC. -/
namespace Sys2Proof.Machine

/-- R103: the segment code of a character code (ASCII, R102). Every code that is no digit, point or dash is blank. -/
def encodeChar (p : Params) (c : Byte) : Byte :=
  if h : 0x30 ≤ c.toNat ∧ c.toNat ≤ 0x39 then p.segDigit[c.toNat - 0x30]
  else if c = 0x2E#8 then p.segDp
  else if c = 0x2D#8 then p.segDash
  else p.segBlank

/-- ENC (R103): return the code; no state is written. -/
def execEnc (c : Byte) (s : State) : Result := .next (s.emit (.code (encodeChar s.params c)))

end Sys2Proof.Machine
end

