-- ==== Sys2Proof/Machine/NumericFormatter.lean ====
section
/-! DEFINITION. The numeric formatter (42_numeric_formatter.md): the scan of the reversed string and FMT. The source cursor `i`
of R110 is the part of the source not yet consumed. -/
namespace Sys2Proof.Machine

/-- The code of one slot (R110): blank when the source is exhausted (R112); a point folded into the next character (R113), or
into a blank when there is none (R114); else the character's own code. -/
def slotCode (p : Params) : List Byte → Byte
  | [] => p.segBlank
  | [c] => if c = 0x2E#8 then p.segBlank &&& p.segDp else encodeChar p c
  | c :: d :: _ => if c = 0x2E#8 then encodeChar p d &&& p.segDp else encodeChar p c

/-- The source after one slot (R110): a fold consumes two characters, a plain glyph one. -/
def slotRest : List Byte → List Byte
  | [] => []
  | c :: rest => if c = 0x2E#8 then rest.drop 1 else rest

/-- `nb[0..3]` of R110, slot 0 first; what is left of the source is dropped (R115). -/
def formatSlots (p : Params) (r : List Byte) : Vector Byte 4 :=
  #v[slotCode p r,
    slotCode p (slotRest r),
    slotCode p (slotRest (slotRest r)),
    slotCode p (slotRest (slotRest (slotRest r)))]

/-- FMT (R110): all four slots from the string on the port, in one write. -/
def execFmt (s : State) : Result := .next (s.setBuf (formatSlots s.params (scanSource s.strPort)))

end Sys2Proof.Machine
end

