-- ==== Sys2Proof/Machine/PressureFrontEnd.lean ====
section
/-! DEFINITION. The pressure front end (45_pressure_front_end.md). -/
namespace Sys2Proof.Machine

/-- CONV (R171): return the pressure; no state is written. -/
def execConv (smp : Sample) (s : State) : Result := .next (s.emit (.pressure (pressure s.params smp)))

end Sys2Proof.Machine
end

