-- ==== Sys2Proof/Machine/Dispatch.lean ====
section
/-! DEFINITION. One arm per operation, each one call of its meaning. -/
namespace Sys2Proof.Machine

/-- The effect of an operation (R200: every one completes). -/
def exec (i : Instr) (s : State) : Host.Outcome State Fault Refusal :=
  match i with
  | .enc c => Sys2Proof.Machine.execEnc c s
  | .fmt => Sys2Proof.Machine.execFmt s
  | .setd v => Sys2Proof.Machine.execSetd v s
  | .setc v => Sys2Proof.Machine.execSetc v s
  | .setl v => Sys2Proof.Machine.execSetl v s
  | .push b => Sys2Proof.Machine.execPush b s
  | .latch => Sys2Proof.Machine.execLatch s
  | .rdig j => Sys2Proof.Machine.execRdig j s
  | .rcyc => Sys2Proof.Machine.execRcyc s
  | .ctrl smp f => Sys2Proof.Machine.execCtrl smp f s
  | .conv smp => Sys2Proof.Machine.execConv smp s

end Sys2Proof.Machine
end

