-- ==== Sys2Proof/Machine/Step.lean ====
section
/-! DEFINITION. One step: the block takes the next command the host has issued, decodes it, and performs it to completion
(R6), or records it as illegal (R201). -/
namespace Sys2Proof.Machine

/-- One command, performed or recorded, between two operation boundaries. -/
def perform (w : Word) (s : State) : Host.Outcome State Fault Refusal :=
  match decode w with
  | .ok i => exec i s
  | .error f => .next (recordIllegal f w s)

/-- One step of the block. -/
def step (s : State) : Host.Outcome State Fault Refusal :=
  match nextCommand s with
  | none => idle s
  | some (c, t) => finishOutcome (perform c.word t)

/-- `s` with the host's next command word set, ahead of whatever else is issued and with the string that stands on the string
port (for the host; assumption log entry 2). -/
def State.withFetchWord (s : State) (nbits w : Nat) : State :=
  { s with pending := ⟨tableWord nbits w, s.strPort⟩ :: s.pending }

end Sys2Proof.Machine
end

