-- ==== Sys2Proof/Machine/Assembler.lean ====
section
/-! DEFINITION. How a host writes and sequences commands: the assembler syntax (R69) and the main-loop iteration ITER (R71).
Both stand before the block: neither is an operation, and the block never reads assembler text. -/
namespace Sys2Proof.Machine

/-- R69, the column "word": the word of each line of assembler, with OR and shift as the table writes it. -/
def asmWord : Instr → Word
  | .enc c => 0x1000 ||| c.setWidth 16
  | .fmt => 0x2000
  | .setd v => 0x3000 ||| (BitVec.ofBool v).setWidth 16
  | .setc v => 0x4000 ||| (BitVec.ofBool v).setWidth 16
  | .setl v => 0x5000 ||| (BitVec.ofBool v).setWidth 16
  | .push b => 0x6000 ||| b.setWidth 16
  | .latch => 0x7000
  | .rdig j => 0x8000 ||| j.setWidth 16
  | .rcyc => 0x9000
  | .ctrl smp f => 0xA000 ||| (BitVec.ofBool f).setWidth 16 <<< 11 ||| smp.setWidth 16
  | .conv smp => 0xB000 ||| smp.setWidth 16

/-- The command of an operation other than FMT: nothing on the string port. -/
def asmCommand (i : Instr) : Command := ⟨asmWord i, []⟩

/-- R69 `FMT "text"`: the word, with the text on the string port. -/
def asmFmt (text : List Byte) : Command := ⟨asmWord .fmt, text⟩

/-- R71 `ITER s, f, "text"`: one iteration of the host's main loop, with RCYC as the unit of the repeated refresh (R71; D19
leaves the unit of the source's count OPEN; assumption log entry 16). The sleep after it is the host's. -/
def iterCommands (h : HostParams) (smp : Sample) (f : Level) (text : List Byte) : List Command :=
  asmCommand (.ctrl smp f) :: asmFmt text :: List.replicate h.refreshRepeat (asmCommand .rcyc)

/-- One token of a line of assembler (R69). -/
inductive Token where
  /-- A mnemonic. -/
  | name (cs : List Char)
  /-- A number, decimal or hexadecimal, or the code of a character. -/
  | number (n : Nat)
  /-- A text between double quotes. -/
  | text (cs : List Char)
  /-- The comma between two operands. -/
  | comma
  deriving DecidableEq, Repr

/-- The value of a digit of a base up to 16. -/
def digitValue (c : Char) : Option Nat :=
  if '0' ≤ c ∧ c ≤ '9' then some (c.toNat - '0'.toNat)
  else if 'a' ≤ c ∧ c ≤ 'f' then some (c.toNat - 'a'.toNat + 10)
  else if 'A' ≤ c ∧ c ≤ 'F' then some (c.toNat - 'A'.toNat + 10)
  else none

/-- The number a sequence of digits writes in a base, continuing from `acc`. -/
def digitsValue (base : Nat) : Nat → List Char → Option Nat
  | acc, [] => some acc
  | acc, c :: cs =>
    match digitValue c with
    | some d => if d < base then digitsValue base (acc * base + d) cs else none
    | none => none

/-- R69: numbers are decimal or `0x` hexadecimal. -/
def numberOf : List Char → Option Nat
  | '0' :: 'x' :: c :: cs => digitsValue 16 0 (c :: cs)
  | [] => none
  | c :: cs => digitsValue 10 0 (c :: cs)

/-- A run of characters that is neither space, comma, quote nor semicolon: a number or a mnemonic. -/
def wordToken (cs : List Char) : Token :=
  match numberOf cs with
  | some n => .number n
  | none => .name cs

/-- Where the reader of a line stands. The character lists are kept last character first. -/
inductive LexMode where
  /-- Between tokens. -/
  | gap
  /-- Inside a run of characters. -/
  | run (rev : List Char)
  /-- Inside a text. -/
  | text (rev : List Char)
  /-- After the quote that opens a character. -/
  | char
  /-- After the character, before the quote that closes it. -/
  | close (c : Char)
  deriving DecidableEq, Repr

/-- The 8-bit code of a character of assembler text: its ASCII code (R69, R102). DESIGN CHOICE (assumption log entry 17): the
spec gives codes for ASCII only; a character whose code point is 128 to 255 gets that number, and one above has no code. -/
def charCode (c : Char) : Option Byte := if c.toNat < 256 then some (BitVec.ofNat 8 c.toNat) else none

/-- The tokens of a line; `none` where a quote stays open, or holds a character with no 8-bit code (DESIGN CHOICE, assumption
log entry 17: such a line is outside the syntax, whatever its mnemonic). R69: `;` starts a comment, here outside quotes
(assumption log entry 13). -/
def lexLine : LexMode → List Char → Option (List Token)
  | .gap, [] => some []
  | .run rev, [] => some [wordToken rev.reverse]
  | .text _, [] => none
  | .char, [] => none
  | .close _, [] => none
  | .text rev, c :: cs =>
    if c = '"' then (lexLine .gap cs).map (.text rev.reverse :: ·) else lexLine (.text (c :: rev)) cs
  | .char, c :: cs => lexLine (.close c) cs
  | .close x, c :: cs =>
    if c = '\'' then
      match charCode x with
      | some b => (lexLine .gap cs).map (.number b.toNat :: ·)
      | none => none
    else none
  | .gap, c :: cs =>
    if c = ';' then some []
    else if c = ' ' ∨ c = '\t' then lexLine .gap cs
    else if c = ',' then (lexLine .gap cs).map (.comma :: ·)
    else if c = '"' then lexLine (.text []) cs
    else if c = '\'' then lexLine .char cs
    else lexLine (.run [c]) cs
  | .run rev, c :: cs =>
    if c = ';' then some [wordToken rev.reverse]
    else if c = ' ' ∨ c = '\t' then (lexLine .gap cs).map (wordToken rev.reverse :: ·)
    else if c = ',' then (lexLine .gap cs).map (wordToken rev.reverse :: .comma :: ·)
    else if c = '"' then (lexLine (.text []) cs).map (wordToken rev.reverse :: ·)
    else if c = '\'' then (lexLine .char cs).map (wordToken rev.reverse :: ·)
    else lexLine (.run (c :: rev)) cs

/-- The text of FMT as 8-bit character codes (R64, R102). DESIGN CHOICE (assumption log entry 17): a text with a character that
has no 8-bit code is outside the syntax, as `'x'` of such a character is. -/
def textBytes : List Char → Option (List Byte)
  | [] => some []
  | c :: cs =>
    match charCode c, textBytes cs with
    | some b, some bs => some (b :: bs)
    | _, _ => none

/-- The operations with one operand, by mnemonic: the operand's bound and the operation. A number too large for the operand is
outside the syntax, and mnemonics are in capitals (DESIGN CHOICE, assumption log entry 13). `'x'` stands wherever a number
does, so its code, at most 255, meets the same bound (assumption log entry 17). -/
def unaryOperation (name : List Char) (n : Nat) : Option Instr :=
  if name = ['E', 'N', 'C'] ∧ n < 256 then some (.enc (BitVec.ofNat 8 n))
  else if name = ['P', 'U', 'S', 'H'] ∧ n < 256 then some (.push (BitVec.ofNat 8 n))
  else if name = ['S', 'E', 'T', 'D'] ∧ n < 2 then some (.setd (n == 1))
  else if name = ['S', 'E', 'T', 'C'] ∧ n < 2 then some (.setc (n == 1))
  else if name = ['S', 'E', 'T', 'L'] ∧ n < 2 then some (.setl (n == 1))
  else if name = ['R', 'D', 'I', 'G'] ∧ n < 4 then some (.rdig (BitVec.ofNat 2 n))
  else if name = ['C', 'O', 'N', 'V'] ∧ n < 1024 then some (.conv (BitVec.ofNat 10 n))
  else none

/-- R69: the command of a line's tokens; `none` for what is no line of the syntax. -/
def commandOf : List Token → Option Command
  | [.name m] =>
    if m = ['L', 'A', 'T', 'C', 'H'] then some (asmCommand .latch)
    else if m = ['R', 'C', 'Y', 'C'] then some (asmCommand .rcyc)
    else none
  | [.name m, .number n] => (unaryOperation m n).map asmCommand
  | [.name m, .text cs] => if m = ['F', 'M', 'T'] then (textBytes cs).map asmFmt else none
  | [.name m, .number n, .comma, .number f] =>
    if m = ['C', 'T', 'R', 'L'] ∧ n < 1024 ∧ f < 2 then
      some (asmCommand (.ctrl (BitVec.ofNat 10 n) (f == 1)))
    else none
  | _ => none

/-- R69: the command of one line of assembler text. DESIGN CHOICE (assumption log entry 18): the spec says what a line with a
command is and that `;` starts a comment; a line with no command, blank or a comment alone, answers `none`, the same as a
line outside the syntax. -/
def assembleLine (line : List Char) : Option Command := (lexLine .gap line).bind commandOf

end Sys2Proof.Machine
end

