-- ==== Sys2Proof/Machine/Outputs.lean ====
section
/-! DEFINITION. The outputs derived from the state, which are no state of their own: the relay line (R26) and what the display
shows (R29, R100, R153). No operation reads them. -/
namespace Sys2Proof.Machine

/-- R26: the relay line asserts exactly when `PUMP = On`. -/
def relayAsserted (s : State) : Bool := decide (s.pump = .on)

/-- R26: the electrical level of the relay line, by `RELAY_ACTIVE_HIGH`. -/
def relayLevel (s : State) : Level := relayAsserted s == s.params.relayActiveHigh

/-- R29: `SEG_OUT = Q[15:8]` of an output word. -/
def segOut (q : Word) : Byte := q.extractLsb' 8 8

/-- R29: `DIG_SEL = Q[7:0]` of an output word; bits 7..4 are connected to no digit. -/
def digSel (q : Word) : Byte := q.extractLsb' 0 8

/-- R29: is physical digit `j` enabled? -/
def digitEnabled (q : Word) (j : Slot) : Bool := (digSel q).getLsbD j.toNat

/-- R29, R153: digit `j` shows segment bit `k` lit exactly when `Q[j] = 1` and `Q[8+k] = 0`. -/
def segmentLit (q : Word) (j : Slot) (k : Fin 8) : Bool := digitEnabled q j && !(segOut q).getLsbD k.val

/-- The segments by the letters of R100: a naming only, on which no rule depends. -/
inductive Segment where
  | a | b | c | d | e | f | g | dp
  deriving DecidableEq, Repr

/-- R100: the bit of a segment code that drives a segment. -/
def Segment.bit : Segment → Fin 8
  | .a => 0
  | .b => 1
  | .c => 2
  | .d => 3
  | .e => 4
  | .f => 5
  | .g => 6
  | .dp => 7

/-- R100, R101: a segment code is active-low, so it lights the segments whose bit is 0. -/
def lights (code : Byte) (seg : Segment) : Bool := !code.getLsbD seg.bit.val

/-- R24, R47: the slots from left to right as the display is read. -/
def leftToRight : List Slot := [3, 2, 1, 0]

/-- R24: the codes of the buffer as they are read on the display, left to right. -/
def readingOrder (s : State) : List Byte := leftToRight.map (readSlot s)

/-- R132, R153: the latch trace in a list of events. -/
def latchTrace (es : List Event) : List Word :=
  es.filterMap fun
    | .latched q => some q
    | _ => none

/-- R153: what an observer of the display sees over the run: the latch trace across all completed operations. -/
def displayTrace (s : State) : List Word := latchTrace s.responses.flatten

end Sys2Proof.Machine
end

