-- ==== Sys2Proof/Safety.lean ====
section
/-! DEFINITION. The terms in which claims are stated: the named premises of R239, the invariants of the machine, and what two
states share. -/
namespace Sys2Proof.Machine

/-- R239 `reset_state`: the state right after power-on, the unspecified elements free. -/
def ResetState (p : Params) (s : State) : Prop := ∃ d : ResetDraw, s = State.powerOn p d

/-- R239 `no_fault`: `FAULT = NONE`. -/
abbrev NoFault (s : State) : Prop := s.fault = none

/-- R153, R154: exactly one of the digit-select bits 0..3 of an output word is 1. -/
def OneDigitEnabled (q : Word) : Prop := ∃ j : Slot, ∀ k : Slot, digitEnabled q k = decide (k = j)

/-- R101: the thirteen glyph codes of the table. -/
def GlyphCode (p : Params) (g : Byte) : Prop :=
  (∃ k : Fin 10, g = p.segDigit[k]) ∨ g = p.segBlank ∨ g = p.segDp ∨ g = p.segDash

/-- R23, C5: a glyph code, or a glyph code ANDed with `SEG_DP`. -/
def BufferCode (p : Params) (b : Byte) : Prop := GlyphCode p b ∨ ∃ g, GlyphCode p g ∧ b = g &&& p.segDp

/-- R23: every slot of `BUF` holds a valid code. -/
def BufferValid (s : State) : Prop := ∀ j : Slot, BufferCode s.params (readSlot s j)

/-- An operation boundary: no response is being made, and no operand string is on the port (R11, R33). -/
abbrev AtBoundary (s : State) : Prop := s.response = [] ∧ s.strPort = []

/-- The two states agree in every element of R20's state. -/
structure SameBlock (s t : State) : Prop where
  buf : s.buf = t.buf
  pump : s.pump = t.pump
  chain : s.chain = t.chain
  q : s.q = t.q
  data : s.data = t.data
  clk : s.clk = t.clk
  lat : s.lat = t.lat
  fault : s.fault = t.fault

/-- The run of the commands a host issues to `s` (R240), one step each. -/
def runCommands (cs : List Command) (s : State) : Result :=
  match cs with
  | [] => .next s
  | c :: rest =>
    match step (issue [c] s) with
    | .next t => runCommands rest t
    | .fault r => .fault r
    | .refused r => .refused r

/-- R150, R152: the word is that of an RDIG or an RCYC. -/
def IsRefresh (w : Word) : Prop := (∃ j, decode w = .ok (.rdig j)) ∨ decode w = .ok .rcyc

/-- R239 "`Q` was last written by an RDIG or RCYC", of the commands `cs` that led from `s₀` to `s`: one of them is a refresh, and
the latch trace grew no more after it, so that no later edge of `LAT` wrote `Q` (R132). -/
def LastLatchedByRefresh (s₀ : State) (cs : List Command) (s : State) : Prop :=
  s₀.pending = [] ∧ ∃ (before : List Command) (c : Command) (after : List Command) (u : State),
    cs = before ++ c :: after ∧ IsRefresh c.word ∧
    runCommands (before ++ [c]) s₀ = .next u ∧ runCommands after u = .next s ∧ displayTrace s = displayTrace u

/-- R239 `displayed(b0,b1,b2,b3)`: the buffer, and who wrote `Q` last. The second part is a fact about the past, which no element
of R20's state holds, so the premise names the commands that led to the start state `s` from some earlier state `s₀`
(assumption log entry 12). -/
def Displayed (b : Vector Byte 4) (s₀ : State) (cs : List Command) (s : State) : Prop :=
  s.buf = b ∧ LastLatchedByRefresh s₀ cs s

end Sys2Proof.Machine
end

