-- ==== Sys2Proof/Certificates/Slice0/Obligations.lean ====
section
/-! DEFINITION. The statements for the provers. Each docstring names the rule of spec/ it formalises. A statement that depends
on the value of a parameter names the parameter (R7); the others hold for every parameter the state carries. -/

namespace Sys2Proof.Claims

open Sys2Proof.Machine

/-- The "Encoding" line of an operation's rule: its word, and the match and mask of its row. -/
def HasEncoding (o : Op) (i : Instr) (word rowMatch rowMask : Word) : Prop :=
  encode i = word ∧ i.op = o ∧ o.matchWord = rowMatch ∧ o.mask = rowMask

/-- The operations one after another, inside one response. -/
def execSeq : List Instr → State → Result
  | [], s => .next s
  | i :: rest, s =>
    match exec i s with
    | .next t => execSeq rest t
    | .fault r => .fault r
    | .refused r => .refused r

/-- R110's loop with its two cursors as the rule writes them: `slots` slots are still to be written and `i` is the source
cursor into the reversed string `r`. -/
def scanByIndex (p : Params) (r : List Byte) : (slots i : Nat) → List Byte
  | 0, _ => []
  | k + 1, i =>
    if r.length ≤ i then p.segBlank :: scanByIndex p r k i
    else if r.getD i 0 = 0x2E#8 then
      (if i + 1 < r.length then encodeChar p (r.getD (i + 1) 0) &&& p.segDp else p.segBlank &&& p.segDp)
        :: scanByIndex p r k (i + 2)
    else encodeChar p (r.getD i 0) :: scanByIndex p r k (i + 1)

/-- The table of R105 under the default codes: the combined code by the character before the point. -/
def combinedCode (c : Byte) : Byte :=
  match c.toNat with
  | 0x30 => 0x40
  | 0x31 => 0x79
  | 0x32 => 0x24
  | 0x33 => 0x30
  | 0x34 => 0x19
  | 0x35 => 0x12
  | 0x36 => 0x02
  | 0x37 => 0x78
  | 0x38 => 0x00
  | 0x39 => 0x10
  | 0x2D => 0x3F
  | _ => 0x7F

/-- R70: the line operations of PUSH. -/
def pushLines (b : Byte) : List Instr :=
  [7, 6, 5, 4, 3, 2, 1, 0].flatMap fun k => [.setd (b.getLsbD k), .setc false, .setc true]

/-- R70: the line operations of LATCH. -/
def latchLines : List Instr := [.setl false, .setl true]

/-- R70: the operations of RDIG with the buffer and the select bytes of a state. -/
def rdigParts (s : State) (j : Slot) : List Instr :=
  [.push s.buf[j.toNat], .push s.params.sel[j.toNat], .latch]

/-- R70: the operations of RCYC. -/
def rcycParts : List Instr := [.rdig 0, .rdig 1, .rdig 2, .rdig 3]

/-- The four entries of the latch trace of a refresh cycle (R152). -/
def cycleTrace (p : Params) (b : Vector Byte 4) : List Word :=
  [b[0] ++ p.sel[0], b[1] ++ p.sel[1], b[2] ++ p.sel[2], b[3] ++ p.sel[3]]

/-- The controller records in a list of events. -/
def pumpTrace (es : List Event) : List PumpState :=
  es.filterMap fun
    | .control pump _ => some pump
    | _ => none

/-- The level of the relay line after a list of writes. -/
def lineAfter (before : PumpState) (ws : List RelayWrite) : PumpState :=
  ws.foldl (fun _ w => w.level) before

end Sys2Proof.Claims

open Sys2Proof Sys2Proof.Machine Sys2Proof.Claims

/-! ### The command word (30_encoding.md) -/

/-- R62, R63, R66: no bit of an encoding is dropped; every operation at every operand value is read back from its word. -/
def Obligations.DecodeOfEncodeIsTheInstruction : Prop :=
  ∀ i : Instr, i.wellFormed = true → decode (encode i) = .ok i

/-- R65, R66: a legal word is the word of the operation it decodes to, so no two words name one operation. -/
def Obligations.LegalWordIsTheEncoding : Prop :=
  ∀ (w : Word) (i : Instr), decode w = .ok i → encode i = w

/-- R65: a word selects the operation of a row exactly when it meets the row's mask and match, and no two rows match the same
word. -/
def Obligations.RowSelectsExactlyItsWords : Prop :=
  (∀ (w : Word) (o : Op), w &&& o.mask = o.matchWord ↔ decode w = .ok (o.withFields w)) ∧
  ∀ (w : Word) (o o' : Op), w &&& o.mask = o.matchWord → w &&& o'.mask = o'.matchWord → o = o'

/-- R66: decoding is total, by the operation code first and the reserved bits second. -/
def Obligations.DecodeFollowsRule66 : Prop :=
  ∀ w : Word,
    if w.extractLsb' 12 4 ∈ [0x0#4, 0xC#4, 0xD#4, 0xE#4, 0xF#4] then decode w = .error .illegalOpcode
    else ∃ o : Op, o.matchWord = (w.extractLsb' 12 4).setWidth 16 <<< 12 ∧
      decode w = if w &&& o.mask ≠ o.matchWord then .error .reservedField else .ok (o.withFields w)

/-- R67: of the 65536 words 3597 are legal, 20480 have an unassigned operation code, and 41459 have an assigned one and a
reserved bit set. -/
def Obligations.LegalAndIllegalWordCounts : Prop :=
  (List.range 65536).countP (fun n => legalWord (BitVec.ofNat 16 n)) = 3597 ∧
  (List.range 65536).countP (fun n => decide (decode (BitVec.ofNat 16 n) = .error .illegalOpcode)) = 20480 ∧
  (List.range 65536).countP (fun n => decide (decode (BitVec.ofNat 16 n) = .error .reservedField)) = 41459

/-- 95_test_vectors.md 2.1, 2.2, 2.7: words written out from the spec's encodings decode to the operations they stand for. -/
def Obligations.WrittenOutWordsDecode : Prop :=
  decode 0b0001000000101101 = .ok (.enc 0x2D) ∧
  decode 0b0010000000000000 = .ok .fmt ∧
  decode 0b0011000000000001 = .ok (.setd true) ∧
  decode 0b0110000010100101 = .ok (.push 0xA5) ∧
  decode 0b1000000000000011 = .ok (.rdig 3) ∧
  decode 0b1010100010001000 = .ok (.ctrl 136 true) ∧
  decode 0b1010000001100100 = .ok (.ctrl 100 false) ∧
  decode 0b1011001110011001 = .ok (.conv 921) ∧
  decode 0b1100000000000000 = .error .illegalOpcode ∧
  decode 0b0001001100110000 = .error .reservedField ∧
  decode 0b1011101111111111 = .error .reservedField

/-- R69: the words of the assembler's table are the encodings. -/
def Obligations.AssemblerWordsAreTheEncodings : Prop :=
  ∀ i : Instr, asmWord i = encode i

/-! ### The segment encoder (41_segment_encoder.md) -/

/-- R103: ENC returns the code of its character and writes no state: the ten digits, the point, the dash, and blank for every
other code, the terminator among them. -/
def Obligations.EncReturnsTheSegmentCode : Prop :=
  ∀ (c : Byte) (s : State),
    HasEncoding .enc (.enc c) (0x1000 ||| c.setWidth 16) 0x1000 0xFF00 ∧
    exec (.enc c) s = .next { s with
      response := s.response ++ [.code (
        if h : 0x30 ≤ c.toNat ∧ c.toNat ≤ 0x39 then s.params.segDigit[c.toNat - 0x30]
        else if c = 0x2E#8 then s.params.segDp
        else if c = 0x2D#8 then s.params.segDash
        else s.params.segBlank)] }

/-- R104 (and log entry 7 on what a well-formed parameter is): with well-formed parameters every glyph code but `SEG_DP` has the
point dark, and ANDing a glyph code with `SEG_DP` clears bit 7 and nothing else. -/
def Obligations.PointLightsOnlyTheDecimalPoint : Prop :=
  ∀ p : Params, p.WellFormed → p.segDp = 0x7F ∧ ∀ g : Byte, GlyphCode p g →
    (g ≠ p.segDp → g.getLsbD 7 = true) ∧
    ∀ k : Fin 8, (g &&& p.segDp).getLsbD k.val = if k = 7 then false else g.getLsbD k.val

/-- R105: the combined codes FMT makes, by the character before the point, under the default codes (those of 1 and 3..9 are the
spec's general knowledge, log entry 6). -/
def Obligations.CombinedCodesAreTheTable : Prop :=
  ∀ (c : Byte) (s : State), s.params = Params.default → s.strPort = [c, 0x2E#8] → c ≠ 0 →
    ∃ t, exec .fmt s = .next t ∧
      t.buf[0] = combinedCode c

/-! ### The numeric formatter (42_numeric_formatter.md) -/

/-- R110 to R114: FMT writes the four slots that the rule's loop, with its two cursors, computes from the reversed effective
string, and nothing else. -/
def Obligations.FmtFollowsTheTwoCursorLoop : Prop :=
  ∀ s : State, HasEncoding .fmt .fmt 0x2000 0x2000 0xFFFF ∧ ∃ b : Vector Byte 4,
    exec .fmt s = .next { s with buf := b } ∧
    b.toList = scanByIndex s.params (s.strPort.takeWhile (· ≠ 0x00#8)).reverse 4 0

/-- R111, R112: what stands after a terminator is not shown, and an empty effective string blanks all four slots. -/
def Obligations.TerminatorEndsTheString : Prop :=
  ∀ (s : State) (a rest : List Byte), (∀ c ∈ a, c ≠ 0x00#8) →
    (∃ b : Vector Byte 4,
      exec .fmt { s with strPort := a ++ 0x00#8 :: rest } = .next { s with strPort := a ++ 0x00#8 :: rest, buf := b } ∧
      exec .fmt { s with strPort := a } = .next { s with strPort := a, buf := b }) ∧
    exec .fmt { s with strPort := 0x00#8 :: rest } = .next { s with
      strPort := 0x00#8 :: rest
      buf := #v[s.params.segBlank, s.params.segBlank, s.params.segBlank, s.params.segBlank] }

/-- R115: at most the last 8 characters of the effective string affect the buffer. -/
def Obligations.OnlyTheLastEightCharactersCount : Prop :=
  ∀ (s : State) (dropped kept : List Byte), (∀ c ∈ dropped ++ kept, c ≠ 0x00#8) → 8 ≤ kept.length →
    ∃ b : Vector Byte 4,
      exec .fmt { s with strPort := dropped ++ kept } = .next { s with strPort := dropped ++ kept, buf := b } ∧
      exec .fmt { s with strPort := kept } = .next { s with strPort := kept, buf := b }

/-- R116: a string of five characters with one point that is not its first fills all four slots, and the one combined code
stands for the character before the point; a point that is the first character is dropped. -/
def Obligations.FivePrintableCharactersFillFourSlots : Prop :=
  ∀ (s : State) (a b c d : Byte), (∀ x ∈ [a, b, c, d], x ≠ 0x00#8 ∧ x ≠ 0x2E#8) →
    let e := encodeChar s.params
    let dp := s.params.segDp
    exec .fmt { s with strPort := [a, 0x2E#8, b, c, d] } =
      .next { s with strPort := [a, 0x2E#8, b, c, d], buf := #v[e d, e c, e b, e a &&& dp] } ∧
    exec .fmt { s with strPort := [a, b, 0x2E#8, c, d] } =
      .next { s with strPort := [a, b, 0x2E#8, c, d], buf := #v[e d, e c, e b &&& dp, e a] } ∧
    exec .fmt { s with strPort := [a, b, c, 0x2E#8, d] } =
      .next { s with strPort := [a, b, c, 0x2E#8, d], buf := #v[e d, e c &&& dp, e b, e a] } ∧
    exec .fmt { s with strPort := [a, b, c, d, 0x2E#8] } =
      .next { s with strPort := [a, b, c, d, 0x2E#8], buf := #v[e d &&& dp, e c, e b, e a] } ∧
    exec .fmt { s with strPort := [0x2E#8, a, b, c, d] } =
      .next { s with strPort := [0x2E#8, a, b, c, d], buf := #v[e d, e c, e b, e a] }

/-- R24: the reversal makes four plain characters read left to right on the display in the order the string has them. -/
def Obligations.FourCharactersReadLeftToRight : Prop :=
  ∀ (s : State) (a b c d : Byte), s.strPort = [a, b, c, d] → (∀ x ∈ [a, b, c, d], x ≠ 0x00#8 ∧ x ≠ 0x2E#8) →
    ∃ t, exec .fmt s = .next t ∧ readingOrder t = [a, b, c, d].map (encodeChar s.params)

/-! ### The display bus and the shift register (43_shift_register_bus.md) -/

/-- R133: SETD sets the data line and nothing else. -/
def Obligations.SetdDrivesOnlyTheDataLine : Prop :=
  ∀ (v : Level) (s : State),
    HasEncoding .setd (.setd v) (0x3000 ||| (BitVec.ofBool v).setWidth 16) 0x3000 0xFFFE ∧
    exec (.setd v) s = .next { s with data := v }

/-- R131, R134: SETC sets the clock line; on a change from 0 to 1, and only then, the chain shifts by one stage and takes the
data level into bit 0. -/
def Obligations.SetcShiftsOnARisingEdge : Prop :=
  ∀ (v : Level) (s : State),
    HasEncoding .setc (.setc v) (0x4000 ||| (BitVec.ofBool v).setWidth 16) 0x4000 0xFFFE ∧
    ∃ c : Word, exec (.setc v) s = .next { s with clk := v, chain := c } ∧
      ∀ k : Fin 16, c.getLsbD k.val =
        if s.clk = false ∧ v = true then (if k = 0 then s.data else s.chain.getLsbD (k.val - 1))
        else s.chain.getLsbD k.val

/-- R132, R135: SETL sets the latch line; on a change from 0 to 1, and only then, the outputs take all 16 bits of the chain and
the latch trace gains them. -/
def Obligations.SetlLatchesOnARisingEdge : Prop :=
  ∀ (v : Level) (s : State),
    HasEncoding .setl (.setl v) (0x5000 ||| (BitVec.ofBool v).setWidth 16) 0x5000 0xFFFE ∧
    exec (.setl v) s = .next (
      if s.lat = false ∧ v = true then
        { s with lat := true, q := s.chain, response := s.response ++ [.latched s.chain] }
      else { s with lat := v })

/-- R136, R41: PUSH is its eight rounds of line operations, and its net effect is the byte in the chain's low half and the old
low half in the high half; it does not latch. -/
def Obligations.PushShiftsOneByteIn : Prop :=
  ∀ (b : Byte) (s : State),
    HasEncoding .push (.push b) (0x6000 ||| b.setWidth 16) 0x6000 0xFF00 ∧
    exec (.push b) s = execSeq (pushLines b) s ∧
    exec (.push b) s = .next { s with
      chain := s.chain.extractLsb' 0 8 ++ b
      data := b.getLsbD 0
      clk := true }

/-- R137: LATCH is SETL 0 then SETL 1, and its net effect is one latch of the chain, whatever the line's level was. -/
def Obligations.LatchPublishesTheChain : Prop :=
  ∀ s : State,
    HasEncoding .latch .latch 0x7000 0x7000 0xFFFF ∧
    exec .latch s = execSeq latchLines s ∧
    exec .latch s = .next { s with
      q := s.chain
      lat := true
      response := s.response ++ [.latched s.chain] }

/-- R42: after two pushes the chain holds exactly the two bytes, the first in the high half. -/
def Obligations.TwoPushesReplaceTheChain : Prop :=
  ∀ (a b : Byte) (s : State), ∃ t, execSeq [.push a, .push b] s = .next t ∧
    t.chain.extractLsb' 8 8 = a ∧ t.chain.extractLsb' 0 8 = b

/-- R234, R43: a latch after `k` shifts, `k` at most 16, shows the `k` new bits in the low end, the last one in bit 0, and the
older chain bits shifted up. -/
def Obligations.LatchAfterAPartialShift : Prop :=
  ∀ (bits : List Level) (s : State), bits.length ≤ 16 →
    ∃ t, execSeq ((bits.flatMap fun d => [.setd d, .setc false, .setc true]) ++ [.latch]) s = .next t ∧
      t.q = t.chain ∧
      ∀ n : Fin 16, t.q.getLsbD n.val =
        if n.val < bits.length then bits.getD (bits.length - 1 - n.val) false
        else s.chain.getLsbD (n.val - bits.length)

/-! ### The display multiplexer (44_display_multiplexer.md) -/

/-- R150, R151: RDIG is its two pushes and its latch, and its net effect does not depend on the earlier chain, outputs or levels.
The select byte is the parameter `SEL(j)` (R7); where it has the value R151 gives, `DATA` ends at 1 for slot 0 and 0 for the
others. -/
def Obligations.RdigShowsOneSlot : Prop :=
  ∀ (j : Slot) (s : State),
    let selectByte := s.params.sel[j.toNat]
    HasEncoding .rdig (.rdig j) (0x8000 ||| j.setWidth 16) 0x8000 0xFFFC ∧
    exec (.rdig j) s = execSeq (rdigParts s j) s ∧
    exec (.rdig j) s = .next { s with
      chain := s.buf[j.toNat] ++ selectByte
      q := s.buf[j.toNat] ++ selectByte
      data := selectByte.getLsbD 0
      clk := true
      lat := true
      response := s.response ++ [.latched (s.buf[j.toNat] ++ selectByte)] } ∧
    (s.params.SelectsOneHot → exec (.rdig j) s = .next { s with
      chain := s.buf[j.toNat] ++ (1#8 <<< j.toNat)
      q := s.buf[j.toNat] ++ (1#8 <<< j.toNat)
      data := decide (j = 0)
      clk := true
      lat := true
      response := s.response ++ [.latched (s.buf[j.toNat] ++ (1#8 <<< j.toNat))] })

/-- R152: RCYC is RDIG of the slots 0 to 3, and its net effect is the trace of the four slots and the last one left shown, with the
select bytes as parameters (R7) and, where they have the values R151 gives, with the rule's own. -/
def Obligations.RcycShowsTheFourSlots : Prop :=
  ∀ s : State,
    HasEncoding .rcyc .rcyc 0x9000 0x9000 0xFFFF ∧
    exec .rcyc s = execSeq rcycParts s ∧
    exec .rcyc s = .next { s with
      chain := s.buf[3] ++ s.params.sel[3]
      q := s.buf[3] ++ s.params.sel[3]
      data := s.params.sel[3].getLsbD 0
      clk := true
      lat := true
      response := s.response ++ (cycleTrace s.params s.buf).map .latched } ∧
    (s.params.SelectsOneHot → exec .rcyc s = .next { s with
      chain := s.buf[3] ++ 0x08#8
      q := s.buf[3] ++ 0x08#8
      data := false
      clk := true
      lat := true
      response := s.response ++ [.latched (s.buf[0] ++ 0x01#8), .latched (s.buf[1] ++ 0x02#8),
        .latched (s.buf[2] ++ 0x04#8), .latched (s.buf[3] ++ 0x08#8)] })

/-- R153: over one RCYC the latch trace gains four entries, in the order slot 0, 1, 2, 3; each enables exactly its own digit and
shows that slot's code on the segment lines. `SEL` has the value R151 gives. -/
def Obligations.RefreshCycleEnablesOneDigitAtATime : Prop :=
  ∀ s : State, s.params.SelectsOneHot → ∃ (t : State) (q : Vector Word 4), exec .rcyc s = .next t ∧
    latchTrace t.response = latchTrace s.response ++ q.toList ∧
    ∀ j k : Slot, segOut q[j.toNat] = s.buf[j.toNat] ∧ digitEnabled q[j.toNat] k = decide (k = j)

/-- R29, R150, R153: after RDIG a segment is lit exactly on the refreshed digit and where the slot's code has a 0. `SEL` has
the value R151 gives. -/
def Obligations.RdigLightsTheSlotsSegments : Prop :=
  ∀ (j : Slot) (s : State), s.params.SelectsOneHot → ∃ t, exec (.rdig j) s = .next t ∧
    ∀ (d : Slot) (k : Fin 8), segmentLit t.q d k = true ↔ d = j ∧ s.buf[j.toNat].getLsbD k.val = false

/-- R154: RDIG and RCYC leave one digit enabled, every pattern they latch enables one digit, and no operation but SETL and LATCH
can end that. `SEL` has the value R151 gives. -/
def Obligations.OneDigitStaysEnabled : Prop :=
  ∀ (i : Instr) (s t : State), s.params.SelectsOneHot → exec i s = .next t →
    ((∃ j, i = .rdig j) ∨ i = .rcyc → OneDigitEnabled t.q) ∧
    ((∀ v, i ≠ .setl v) → i ≠ .latch → OneDigitEnabled s.q → OneDigitEnabled t.q) ∧
    ((∀ v, i ≠ .setl v) → i ≠ .latch →
      ∃ qs, latchTrace t.response = latchTrace s.response ++ qs ∧ ∀ q ∈ qs, OneDigitEnabled q)

/-- R239 "(so `DIG_SEL` is one-hot)": in a start state that meets the premise `displayed`, the digit select is that of one
slot, and, with the select bytes R151 gives, exactly that digit is enabled. The premise is stated over the commands that led
there (log entry 12). -/
def Obligations.DisplayedStateEnablesOneDigit : Prop :=
  ∀ (b : Vector Byte 4) (s₀ : State) (cs : List Command) (s : State), Displayed b s₀ cs s →
    s.buf = b ∧ ∃ j : Slot, digSel s.q = s.params.sel[j.toNat] ∧
      (s.params.SelectsOneHot → ∀ k : Slot, digitEnabled s.q k = decide (k = j))

/-! ### The pressure front end (45_pressure_front_end.md) -/

/-- R171, R10: CONV returns the linear pressure of its sample and writes no state; with the default parameters it is
`(10s - 1023) / 6820`. Where R171's quotient has no stated value (parameters R7 calls ill-formed) CONV completes too, and the
statement says nothing of the free value it returns (log entry 8). -/
def Obligations.ConvReturnsTheLinearPressure : Prop :=
  ∀ (smp : Sample) (s : State),
    HasEncoding .conv (.conv smp) (0xB000 ||| smp.setWidth 16) 0xB000 0xFC00 ∧
    ∃ p : Rat, exec (.conv smp) s = .next { s with response := s.response ++ [.pressure p] } ∧
      (s.params.adcFull ≠ 0 → s.params.vMax ≠ s.params.vMin →
        p = ((smp.toNat : Rat) * s.params.vRef / (s.params.adcFull : Rat) - s.params.vMin)
              / (s.params.vMax - s.params.vMin) * s.params.pMax) ∧
      (s.params = Params.default → p = (10 * (smp.toNat : Rat) - 1023) / 6820)

/-- R172: with the default calibration a sample is out of band exactly when it is at most 102 or at least 921, and CONV returns
the linear value for it as for any other. -/
def Obligations.OutOfBandSamplesByDefault : Prop :=
  ∀ (smp : Sample) (s : State), s.params = Params.default →
    ((volts s.params smp < s.params.vMin ∨ s.params.vMax < volts s.params smp) ↔ smp.toNat ≤ 102 ∨ 921 ≤ smp.toNat) ∧
    (outOfBand s.params smp = true ↔ smp.toNat ≤ 102 ∨ 921 ≤ smp.toNat) ∧
    exec (.conv smp) s =
      .next { s with response := s.response ++ [.pressure ((10 * (smp.toNat : Rat) - 1023) / 6820)] }

/-- R173: the pressure is not clamped: with the default parameters it runs from -0.15 at sample 0 to 1.35 at sample 1023. -/
def Obligations.PressureIsNotClamped : Prop :=
  pressure Params.default 0 = -(15 / 100) ∧ pressure Params.default 1023 = 135 / 100 ∧
  ∀ smp : Sample, -(15 / 100) ≤ pressure Params.default smp ∧ pressure Params.default smp ≤ 135 / 100

/-- R174: each count adds the same amount of pressure, and a larger sample gives a strictly larger pressure. The rule leaves the
premises `V_REF > 0` and `ADC_FULL > 0` unsaid; with the defaults the step is 1/682 and no sample gives exactly 0 or `P_MAX`. -/
def Obligations.PressureIsAffineAndIncreasing : Prop :=
  (∀ (p : Params) (a b : Sample), p.adcFull ≠ 0 → p.vMin < p.vMax →
    pressure p b - pressure p a =
      ((b.toNat : Rat) - (a.toNat : Rat)) * (p.vRef * p.pMax / ((p.adcFull : Rat) * (p.vMax - p.vMin)))) ∧
  (∀ (p : Params) (a b : Sample), p.adcFull ≠ 0 → p.vMin < p.vMax → 0 < p.pMax → 0 < p.vRef → a.toNat < b.toNat →
    pressure p a < pressure p b) ∧
  ∀ smp : Sample, pressure Params.default smp ≠ 0 ∧ pressure Params.default smp ≠ Params.default.pMax

/-- R175: with the default parameters the thresholds lie between samples 218 and 219, and between 286 and 287. -/
def Obligations.ThresholdsInSampleTerms : Prop :=
  ∀ smp : Sample,
    (pressure Params.default smp < Params.default.lowPressure ↔ smp.toNat ≤ 218) ∧
    (Params.default.highPressure < pressure Params.default smp ↔ 287 ≤ smp.toNat)

/-! ### The hysteresis controller (46_hysteresis_controller.md) -/

/-- R183, R185, R186, R187: CTRL evaluates the turn-on rule and then the turn-off rule, writes the relay line once for each
that fires, each write with its settle, and changes `PUMP` and nothing else of the block. Where both rules fire, the settle of
the Off write (the conjunct with `¬onFires`) is the model's reading of R187, log entry 14 (DEDUCED): it is judged against the
level the On write left. -/
def Obligations.CtrlIsOneControllerStep : Prop :=
  ∀ (smp : Sample) (f : Level) (s : State),
    let P := s.params
    let p := pressure P smp
    let oob := P.failsafeOob = true ∧ (volts P smp < P.vMin ∨ P.vMax < volts P smp)
    let onFires := p < P.lowPressure ∧ f = true ∧ ¬oob
    let offFires := P.highPressure < p ∨ f = false ∨ oob
    HasEncoding .ctrl (.ctrl smp f) (0xA000 ||| (BitVec.ofBool f).setWidth 16 <<< 11 ||| smp.setWidth 16) 0xA000 0xF400 ∧
    ∃ (next : PumpState) (ws : List RelayWrite),
      exec (.ctrl smp f) s = .next { s with
        pump := next
        response := s.response ++ [.control next ws] } ∧
      (offFires → next = .off) ∧
      (¬offFires → onFires → next = .on) ∧
      (¬offFires → ¬onFires → next = s.pump) ∧
      ∃ wsOn wsOff : List RelayWrite, ws = wsOn ++ wsOff ∧
        (onFires → wsOn = [⟨.on, if P.settleOnSelfLoop = false ∧ s.pump = .on then 0 else P.settleOnMs⟩]) ∧
        (¬onFires → wsOn = []) ∧
        (offFires → wsOff =
          [⟨.off, if P.settleOnSelfLoop = false ∧ s.pump = .off ∧ ¬onFires then 0 else P.settleOffMs⟩]) ∧
        (¬offFires → wsOff = [])

/-- R184: the transition table, with the writes R186 lists, for thresholds that leave a gap. -/
def Obligations.TransitionTable : Prop :=
  ∀ (smp : Sample) (f : Level) (s : State), s.params.lowPressure < s.params.highPressure →
    let p := pressure s.params smp
    let oob := (s.params.failsafeOob && outOfBand s.params smp) = true
    ∃ (next : PumpState) (ws : List RelayWrite),
      exec (.ctrl smp f) s = .next { s with pump := next, response := s.response ++ [.control next ws] } ∧
      (¬oob → f = true → p < s.params.lowPressure → next = .on ∧ ws.map RelayWrite.level = [.on]) ∧
      (¬oob → f = true → s.params.lowPressure ≤ p → p ≤ s.params.highPressure → next = s.pump ∧ ws = []) ∧
      (¬oob → f = true → s.params.highPressure < p → next = .off ∧ ws.map RelayWrite.level = [.off]) ∧
      (¬oob → f = false → next = .off ∧ ws.map RelayWrite.level = [.off]) ∧
      (oob → next = .off ∧ ws.map RelayWrite.level = [.off])

/-- R186, R26: after a CTRL the relay line stands where the last write left it, and asserts exactly when `PUMP` is On, at the
level `RELAY_ACTIVE_HIGH` gives; both
rules write in one CTRL only with `LOW_PRESSURE >= HIGH_PRESSURE`. -/
def Obligations.RelayLineFollowsThePump : Prop :=
  ∀ (smp : Sample) (f : Level) (s : State), ∃ (t : State) (ws : List RelayWrite),
    exec (.ctrl smp f) s = .next t ∧ t.response = s.response ++ [.control t.pump ws] ∧
    lineAfter s.pump ws = t.pump ∧
    (relayAsserted t = true ↔ lineAfter s.pump ws = .on) ∧
    relayLevel t = (if t.pump = .on then s.params.relayActiveHigh else !s.params.relayActiveHigh) ∧
    ws.map RelayWrite.level ∈ [[], [.on], [.off], [.on, .off]] ∧
    (ws.map RelayWrite.level = [.on, .off] → s.params.highPressure ≤ s.params.lowPressure)

/-- R188: the pump turns on only with low pressure and flow, and stays on only without high pressure and with flow; never with
the out-of-band gate. -/
def Obligations.PumpTurnsOnOnlyWithLowPressureAndFlow : Prop :=
  ∀ (smp : Sample) (f : Level) (s t : State), exec (.ctrl smp f) s = .next t → t.pump = .on →
    (s.pump = .off → pressure s.params smp < s.params.lowPressure) ∧
    (s.pump = .on → pressure s.params smp ≤ s.params.highPressure) ∧
    f = true ∧ ¬(s.params.failsafeOob = true ∧ outOfBand s.params smp = true)

/-- R189: without flow the pump is off after a CTRL, whatever the pressure and the state before. -/
def Obligations.NoFlowForcesThePumpOff : Prop :=
  ∀ (smp : Sample) (s : State), ∃ t ms,
    exec (.ctrl smp false) s = .next t ∧ t.pump = .off ∧
    t.response = s.response ++ [.control .off [⟨.off, ms⟩]]

/-- R190: with flow the dead band keeps the pump as it is, so that low, dead, high, dead, low pressures from Off give On, On, Off,
Off, On. -/
def Obligations.DeadBandHoldsThePump : Prop :=
  ∀ (low dead high : Sample) (s : State),
    (s.params.failsafeOob && outOfBand s.params low) = false →
    (s.params.failsafeOob && outOfBand s.params dead) = false →
    pressure s.params low < s.params.lowPressure →
    s.params.lowPressure ≤ pressure s.params dead → pressure s.params dead ≤ s.params.highPressure →
    s.params.highPressure < pressure s.params high →
    exec (.ctrl dead true) s = .next { s with response := s.response ++ [.control s.pump []] } ∧
    (s.pump = .off →
      ∃ t, execSeq [.ctrl low true, .ctrl dead true, .ctrl high true, .ctrl dead true, .ctrl low true] s = .next t ∧
        pumpTrace t.response = pumpTrace s.response ++ [.on, .on, .off, .off, .on])

/-! ### The whole machine -/

/-- R20, R22, R25, R28, R29: what no operation writes (the parameters, the fault field, the host's queue, the string port and the
earlier responses), and for each other element the operations that alone can change it. An operation only adds to its response. -/
def Obligations.EachElementHasOnlyItsWriters : Prop :=
  ∀ (i : Instr) (s t : State), exec i s = .next t →
    t.params = s.params ∧ t.fault = s.fault ∧ t.pending = s.pending ∧ t.strPort = s.strPort ∧
    t.responses = s.responses ∧ (∃ es, t.response = s.response ++ es) ∧
    (t.buf ≠ s.buf → i = .fmt) ∧
    (t.pump ≠ s.pump → ∃ smp f, i = .ctrl smp f) ∧
    (t.chain ≠ s.chain → (∃ v, i = .setc v) ∨ (∃ b, i = .push b) ∨ (∃ j, i = .rdig j) ∨ i = .rcyc) ∧
    (t.q ≠ s.q → (∃ v, i = .setl v) ∨ i = .latch ∨ (∃ j, i = .rdig j) ∨ i = .rcyc) ∧
    (t.data ≠ s.data → (∃ v, i = .setd v) ∨ (∃ b, i = .push b) ∨ (∃ j, i = .rdig j) ∨ i = .rcyc) ∧
    (t.clk ≠ s.clk → (∃ v, i = .setc v) ∨ (∃ b, i = .push b) ∨ (∃ j, i = .rdig j) ∨ i = .rcyc) ∧
    (t.lat ≠ s.lat → (∃ v, i = .setl v) ∨ i = .latch ∨ (∃ j, i = .rdig j) ∨ i = .rcyc)

/-- R46: the operations but PUSH and CTRL leave the same block state done twice as done once; CTRL leaves the same `PUMP` and writes
the relay again where it wrote it; PUSH is not idempotent. Driving a line to the level it already holds changes nothing. -/
def Obligations.RepeatingAnOperation : Prop :=
  (∀ s : State,
    exec (.setd s.data) s = .next s ∧ exec (.setc s.clk) s = .next s ∧ exec (.setl s.lat) s = .next s) ∧
  (∀ (i : Instr) (s t : State), (∀ b, i ≠ .push b) → exec i s = .next t →
    ∃ u, exec i t = .next u ∧ SameBlock u t) ∧
  (∀ (i : Instr) (s t : State) (es : List Event), i = .latch ∨ (∃ j, i = .rdig j) ∨ i = .rcyc →
    exec i s = .next t → t.response = s.response ++ es →
    ∃ u, exec i t = .next u ∧ u.response = t.response ++ es) ∧
  (∀ (smp : Sample) (f : Level) (s t : State) (ws : List RelayWrite),
    exec (.ctrl smp f) s = .next t → t.response = s.response ++ [.control t.pump ws] →
    ∃ u ws', exec (.ctrl smp f) t = .next u ∧ u.response = t.response ++ [.control t.pump ws'] ∧
      ws'.map RelayWrite.level = ws.map RelayWrite.level) ∧
  ∃ (b : Byte) (s t u : State), exec (.push b) s = .next t ∧ exec (.push b) t = .next u ∧ u.chain ≠ t.chain

/-- R11: a response is read by no operation: with any other responses an operation does the same and answers the same. That State
records the responses is the model's choice (log entry 4). -/
def Obligations.ResponsesAreNeverRead : Prop :=
  ∀ (i : Instr) (s : State) (r : List Event) (rs : List (List Event)), ∃ (t : State) (es : List Event),
    exec i s = .next t ∧ t.response = s.response ++ es ∧
    exec i { s with response := r, responses := rs } = .next { t with response := r ++ es, responses := rs }

/-- R33, R64: only FMT reads the string port. -/
def Obligations.OnlyFmtReadsTheStringPort : Prop :=
  ∀ (i : Instr) (s : State) (str : List Byte), i ≠ .fmt →
    ∃ t, exec i s = .next t ∧ exec i { s with strPort := str } = .next { t with strPort := str }

/-- R20, R185: CTRL reads the parameters and `PUMP` and nothing of the display, and what it answers depends on nothing else. -/
def Obligations.ControllerIgnoresTheDisplay : Prop :=
  ∀ (smp : Sample) (f : Level) (s s' : State), s.params = s'.params → s.pump = s'.pump →
    ∃ (t t' : State) (e : Event), exec (.ctrl smp f) s = .next t ∧ exec (.ctrl smp f) s' = .next t' ∧
      t.pump = t'.pump ∧ t.response = s.response ++ [e] ∧ t'.response = s'.response ++ [e]

/-- R202: a legal command is performed the same whatever `FAULT` holds. -/
def Obligations.OperationsIgnoreTheFaultField : Prop :=
  ∀ (i : Instr) (s : State) (f : Option CommandFault), ∃ t,
    exec i s = .next t ∧ exec i { s with fault := f } = .next { t with fault := f }

/-- A step takes the oldest command the host has issued and, when its word decodes to an instruction, is that instruction's
execution between the two operation boundaries: the command leaves the queue, its string is on the port while the instruction
runs, and its response joins the responses of the run. When its word is illegal, the step records it between the same boundaries
(R6, R64, R201, R240; log entries 2, 3 and 4). -/
def Obligations.StepRunsTheDecodedInstruction : Prop :=
  ∀ (s : State) (c : Command) (rest : List Command), s.pending = c :: rest →
    (∀ (i : Instr) (t : State), decode c.word = .ok i → i.wellFormed = true →
      exec i { s with pending := rest, strPort := c.str, response := [] } = .next t →
      step s = .next { t with responses := t.responses ++ [t.response], response := [], strPort := [] }) ∧
    ∀ f : CommandFault, decode c.word = .error f →
      step s = .next { s with
        fault := if s.fault = none then some f else s.fault
        pending := rest
        strPort := []
        response := []
        responses := s.responses ++ [[.fault f c.word]] }

/-- R201: an illegal command records its fault if none is recorded, answers its code and word, and changes nothing else. The
operation code alone tells the two faults apart, and their codes are 1 and 2, NONE being 0. -/
def Obligations.IllegalCommandIsRecordedOnly : Prop :=
  (∀ (w : Word) (f : CommandFault) (s : State), decode w = .error f →
    perform w s = .next { s with
      fault := if s.fault = none then some f else s.fault
      response := s.response ++ [.fault f w] } ∧
    (f = .illegalOpcode ↔ w.extractLsb' 12 4 ∈ [0x0#4, 0xC#4, 0xD#4, 0xE#4, 0xF#4])) ∧
  faultCode none = 0 ∧ faultCode (some .illegalOpcode) = 1 ∧ faultCode (some .reservedField) = 2

/-- R30, R202, R32: once a fault is recorded no step clears or changes it, a step never changes the parameters, and a step
whose word is legal leaves `FAULT` as it was. -/
def Obligations.FaultIsSticky : Prop :=
  ∀ s t : State, step s = .next t →
    (s.fault ≠ none → t.fault = s.fault) ∧ t.params = s.params ∧
    ((∀ c ∈ s.pending.head?, legalWord c.word = true) → t.fault = s.fault)

/-- With no command issued the machine waits in its state (R155, R240; the model's choice, log entry 2). -/
def Obligations.NoCommandNoChange : Prop :=
  ∀ s : State, s.pending = [] → step s = .next s

/-- R200, R240: every operation completes, for every operand and in every state, and the block never stops by itself: every step
answers a next state. The rest is the model's choice: that the issued commands are a queue of which a step takes the oldest, and
a step with none issued waits (log entry 2), and that every command adds exactly one response to those of the run, an empty one
where R11's "may" leaves it without (log entry 4). -/
def Obligations.TheBlockNeverStops : Prop :=
  (∀ (i : Instr) (s : State), ∃ t, exec i s = .next t) ∧
  ∀ s : State, ∃ t, step s = .next t ∧
    t.pending = s.pending.tail ∧
    (s.pending ≠ [] → ∃ r, t.responses = s.responses ++ [r])

/-- R6, R48: issued together or one by one, commands are performed in issue order, each seeing what the ones before it wrote. The
queue they wait in is the model's choice (log entry 2). -/
def Obligations.CommandsRunInIssueOrder : Prop :=
  ∀ (cs : List Command) (s : State), s.pending = [] →
    Host.Core.run core cs.length (issue cs s) = runCommands cs s

/-- R70: a host may issue a macro operation or its expansion: both reach the same state, and the display shows the same trace. -/
def Obligations.MacrosAndTheirExpansionsAgree : Prop :=
  ∀ (s : State) (i : Instr) (parts : List Instr), s.pending = [] →
    ((∃ b, i = .push b ∧ parts = pushLines b) ∨ (i = .latch ∧ parts = latchLines) ∨
      (∃ j, i = .rdig j ∧ parts = rdigParts s j) ∨ (i = .rcyc ∧ parts = rcycParts)) →
    ∃ t u, runCommands [⟨encode i, []⟩] s = .next t ∧
      runCommands (parts.map fun k => ⟨encode k, []⟩) s = .next u ∧
      SameBlock t u ∧ displayTrace t = displayTrace u

/-- R71: one main-loop iteration, for any host parameters, with one RCYC as one repetition of the refresh, as R71's expansion
has it where D19 leaves the source's unit OPEN (the model's choice, log entry 16): the controller's step, the formatted text,
and as many refresh cycles as `REFRESH_REPEAT` says, each showing the new buffer. -/
def Obligations.IterIsOneLoopIteration : Prop :=
  ∀ (h : HostParams) (smp : Sample) (f : Level) (text : List Byte) (s : State), s.pending = [] →
    ∃ t u, exec (.ctrl smp f) s = .next u ∧
      runCommands (iterCommands h smp f text) s = .next t ∧
      t.pump = u.pump ∧ t.fault = s.fault ∧ t.pending = [] ∧
      t.buf.toList = scanByIndex s.params (text.takeWhile (· ≠ 0x00#8)).reverse 4 0 ∧
      displayTrace t = displayTrace s ++ (List.replicate h.refreshRepeat (cycleTrace s.params t.buf)).flatten ∧
      (0 < h.refreshRepeat → t.q = t.buf[3] ++ s.params.sel[3])

/-! ### Invariants and reset -/

/-- R23: in every state whose slots hold glyph codes or glyph codes ANDed with `SEG_DP`, a step leaves such a state. -/
def Obligations.BufferStaysValid : Prop :=
  ∀ s t : State, BufferValid s → step s = .next t → BufferValid t

/-- R23, R34: the reset buffer is valid, for every draw of the unspecified elements, when `SEG_BLANK` has its default 0xFF. -/
def Obligations.ResetBufferIsValid : Prop :=
  ∀ (p : Params) (s : State), p.segBlank = 0xFF → ResetState p s → BufferValid s

/-- R11, R33: from an operation boundary a step leads to an operation boundary: no response in the making and no string on the
port survives a command. Reset is one. The two fields are the model's (log entries 3 and 4). -/
def Obligations.StepsEndAtABoundary : Prop :=
  (∀ s t : State, AtBoundary s → step s = .next t → AtBoundary t) ∧
  ∀ (p : Params) (s : State), ResetState p s → AtBoundary s

/-- R34, R221: the elements whose reset value the spec gives, for every draw of the others, and `State.reset` is one such state (the
draw it takes is the model's choice, log entry 1; the literal 0xFF is log entry 10). -/
def Obligations.ResetValues : Prop :=
  (∀ (p : Params) (s : State), ResetState p s →
    (∀ j : Slot, readSlot s j = 0xFF) ∧ s.pump = .off ∧ relayAsserted s = false ∧ NoFault s) ∧
  ResetState Params.default State.reset

/-- R34, R231: before the first latch the outputs are unspecified, so any pattern is that of some reset state; after the first RDIG
one digit is enabled, whatever was drawn, with the select bytes R151 gives; the segments are dark, the reset
buffer being blank. -/
def Obligations.OutputsBeforeTheFirstLatch : Prop :=
  (∀ (p : Params) (q : Word), ∃ s, ResetState p s ∧ s.q = q) ∧
  ∀ (p : Params) (s : State) (j : Slot), ResetState p s →
    ∃ t, exec (.rdig j) s = .next t ∧ (p.SelectsOneHot → OneDigitEnabled t.q) ∧ segOut t.q = 0xFF
end

