-- ==== Sys2Proof/Laws/Controller.lean ====
section
/-! SUPPORT. When the controller's rules fire and what its conditions say, as propositions, and the pressure where its divisors
are not 0. -/
namespace Sys2Proof.Machine

/-- R171 with well-formed divisors. -/
theorem volts_eq (p : Params) (smp : Sample) (h : p.adcFull ≠ 0) :
    volts p smp = (smp.toNat : Rat) * p.vRef / (p.adcFull : Rat) := if_neg h

/-- R171 with well-formed divisors. -/
theorem pressure_eq (p : Params) (smp : Sample) (h : p.vMax ≠ p.vMin) :
    pressure p smp = (volts p smp - p.vMin) / (p.vMax - p.vMin) * p.pMax := if_neg h

/-- R172. -/
theorem outOfBand_iff (p : Params) (smp : Sample) :
    outOfBand p smp = true ↔ volts p smp < p.vMin ∨ p.vMax < volts p smp := by
  simp [outOfBand]

/-- R183 `on_fire` on the signals of R181 and R182. -/
theorem onFire_iff (p : Params) (smp : Sample) (f : Level) :
    onFire (conditions p smp f) = true ↔
      pressure p smp < p.lowPressure ∧ f = true ∧ ¬(p.failsafeOob = true ∧ outOfBand p smp = true) := by
  simp only [onFire, conditions, Bool.and_eq_true, Bool.not_eq_true', decide_eq_true_eq, and_assoc]
  simp

/-- R183 `off_fire` on the signals of R181 and R182. -/
theorem offFire_iff (p : Params) (smp : Sample) (f : Level) :
    offFire (conditions p smp f) = true ↔
      p.highPressure < pressure p smp ∨ f = false ∨ (p.failsafeOob = true ∧ outOfBand p smp = true) := by
  simp only [offFire, conditions, Bool.or_eq_true, Bool.and_eq_true, Bool.not_eq_true', decide_eq_true_eq, or_assoc]

/-- R183: the turn-off rule overrides, then the turn-on rule decides, and with neither the state holds. -/
theorem nextPump_eq (c : Conditions) (before : PumpState) :
    nextPump c before = if offFire c then .off else if onFire c then .on else before := rfl

end Sys2Proof.Machine
end

