-- ==== Sys2Proof/Laws/Formatter.lean ====
section
/-! SUPPORT. The cases of one slot of the scan (R110), and where a fold and a plain glyph leave the source. -/
namespace Sys2Proof.Machine

/-- R112: an exhausted source gives a blank and stays exhausted. -/
@[simp] theorem slotCode_nil (p : Params) : slotCode p [] = p.segBlank := rfl

@[simp] theorem slotRest_nil : slotRest [] = [] := rfl

/-- R114: a point at the end of the scan is folded into a blank. -/
@[simp] theorem slotCode_point_last (p : Params) : slotCode p [0x2E#8] = p.segBlank &&& p.segDp := rfl

@[simp] theorem slotRest_point_last : slotRest [0x2E#8] = [] := rfl

/-- R113: a point is folded into the character after it, which is consumed with it. -/
@[simp] theorem slotCode_point (p : Params) (d : Byte) (rest : List Byte) :
    slotCode p (0x2E#8 :: d :: rest) = encodeChar p d &&& p.segDp := rfl

@[simp] theorem slotRest_point (d : Byte) (rest : List Byte) : slotRest (0x2E#8 :: d :: rest) = rest := rfl

/-- R110: a plain glyph takes one slot and one character. -/
theorem slotCode_glyph (p : Params) (c : Byte) (rest : List Byte) (h : c ≠ 0x2E#8) :
    slotCode p (c :: rest) = encodeChar p c := by
  cases rest <;> simp [slotCode, h]

theorem slotRest_glyph (c : Byte) (rest : List Byte) (h : c ≠ 0x2E#8) : slotRest (c :: rest) = rest := by
  simp [slotRest, h]

end Sys2Proof.Machine
end

