-- ==== Sys2Proof/Laws/State.lean ====
section
/-! SUPPORT. What each update of the state leaves in each field. -/
namespace Sys2Proof.Machine

section
variable (s : State) (b : Vector Byte 4)
@[simp] theorem State.setBuf_params : (s.setBuf b).params = s.params := rfl
@[simp] theorem State.setBuf_buf : (s.setBuf b).buf = b := rfl
@[simp] theorem State.setBuf_pump : (s.setBuf b).pump = s.pump := rfl
@[simp] theorem State.setBuf_chain : (s.setBuf b).chain = s.chain := rfl
@[simp] theorem State.setBuf_q : (s.setBuf b).q = s.q := rfl
@[simp] theorem State.setBuf_data : (s.setBuf b).data = s.data := rfl
@[simp] theorem State.setBuf_clk : (s.setBuf b).clk = s.clk := rfl
@[simp] theorem State.setBuf_lat : (s.setBuf b).lat = s.lat := rfl
@[simp] theorem State.setBuf_fault : (s.setBuf b).fault = s.fault := rfl
@[simp] theorem State.setBuf_strPort : (s.setBuf b).strPort = s.strPort := rfl
@[simp] theorem State.setBuf_pending : (s.setBuf b).pending = s.pending := rfl
@[simp] theorem State.setBuf_response : (s.setBuf b).response = s.response := rfl
@[simp] theorem State.setBuf_responses : (s.setBuf b).responses = s.responses := rfl
end

section
variable (s : State) (v : PumpState)
@[simp] theorem State.setPump_params : (s.setPump v).params = s.params := rfl
@[simp] theorem State.setPump_buf : (s.setPump v).buf = s.buf := rfl
@[simp] theorem State.setPump_pump : (s.setPump v).pump = v := rfl
@[simp] theorem State.setPump_chain : (s.setPump v).chain = s.chain := rfl
@[simp] theorem State.setPump_q : (s.setPump v).q = s.q := rfl
@[simp] theorem State.setPump_data : (s.setPump v).data = s.data := rfl
@[simp] theorem State.setPump_clk : (s.setPump v).clk = s.clk := rfl
@[simp] theorem State.setPump_lat : (s.setPump v).lat = s.lat := rfl
@[simp] theorem State.setPump_fault : (s.setPump v).fault = s.fault := rfl
@[simp] theorem State.setPump_strPort : (s.setPump v).strPort = s.strPort := rfl
@[simp] theorem State.setPump_pending : (s.setPump v).pending = s.pending := rfl
@[simp] theorem State.setPump_response : (s.setPump v).response = s.response := rfl
@[simp] theorem State.setPump_responses : (s.setPump v).responses = s.responses := rfl
end

section
variable (s : State) (v : Word)
@[simp] theorem State.setChain_params : (s.setChain v).params = s.params := rfl
@[simp] theorem State.setChain_buf : (s.setChain v).buf = s.buf := rfl
@[simp] theorem State.setChain_pump : (s.setChain v).pump = s.pump := rfl
@[simp] theorem State.setChain_chain : (s.setChain v).chain = v := rfl
@[simp] theorem State.setChain_q : (s.setChain v).q = s.q := rfl
@[simp] theorem State.setChain_data : (s.setChain v).data = s.data := rfl
@[simp] theorem State.setChain_clk : (s.setChain v).clk = s.clk := rfl
@[simp] theorem State.setChain_lat : (s.setChain v).lat = s.lat := rfl
@[simp] theorem State.setChain_fault : (s.setChain v).fault = s.fault := rfl
@[simp] theorem State.setChain_strPort : (s.setChain v).strPort = s.strPort := rfl
@[simp] theorem State.setChain_pending : (s.setChain v).pending = s.pending := rfl
@[simp] theorem State.setChain_response : (s.setChain v).response = s.response := rfl
@[simp] theorem State.setChain_responses : (s.setChain v).responses = s.responses := rfl
end

section
variable (s : State) (v : Word)
@[simp] theorem State.setQ_params : (s.setQ v).params = s.params := rfl
@[simp] theorem State.setQ_buf : (s.setQ v).buf = s.buf := rfl
@[simp] theorem State.setQ_pump : (s.setQ v).pump = s.pump := rfl
@[simp] theorem State.setQ_chain : (s.setQ v).chain = s.chain := rfl
@[simp] theorem State.setQ_q : (s.setQ v).q = v := rfl
@[simp] theorem State.setQ_data : (s.setQ v).data = s.data := rfl
@[simp] theorem State.setQ_clk : (s.setQ v).clk = s.clk := rfl
@[simp] theorem State.setQ_lat : (s.setQ v).lat = s.lat := rfl
@[simp] theorem State.setQ_fault : (s.setQ v).fault = s.fault := rfl
@[simp] theorem State.setQ_strPort : (s.setQ v).strPort = s.strPort := rfl
@[simp] theorem State.setQ_pending : (s.setQ v).pending = s.pending := rfl
@[simp] theorem State.setQ_response : (s.setQ v).response = s.response := rfl
@[simp] theorem State.setQ_responses : (s.setQ v).responses = s.responses := rfl
end

section
variable (s : State) (v : Level)
@[simp] theorem State.setData_params : (s.setData v).params = s.params := rfl
@[simp] theorem State.setData_buf : (s.setData v).buf = s.buf := rfl
@[simp] theorem State.setData_pump : (s.setData v).pump = s.pump := rfl
@[simp] theorem State.setData_chain : (s.setData v).chain = s.chain := rfl
@[simp] theorem State.setData_q : (s.setData v).q = s.q := rfl
@[simp] theorem State.setData_data : (s.setData v).data = v := rfl
@[simp] theorem State.setData_clk : (s.setData v).clk = s.clk := rfl
@[simp] theorem State.setData_lat : (s.setData v).lat = s.lat := rfl
@[simp] theorem State.setData_fault : (s.setData v).fault = s.fault := rfl
@[simp] theorem State.setData_strPort : (s.setData v).strPort = s.strPort := rfl
@[simp] theorem State.setData_pending : (s.setData v).pending = s.pending := rfl
@[simp] theorem State.setData_response : (s.setData v).response = s.response := rfl
@[simp] theorem State.setData_responses : (s.setData v).responses = s.responses := rfl
end

section
variable (s : State) (v : Level)
@[simp] theorem State.setClk_params : (s.setClk v).params = s.params := rfl
@[simp] theorem State.setClk_buf : (s.setClk v).buf = s.buf := rfl
@[simp] theorem State.setClk_pump : (s.setClk v).pump = s.pump := rfl
@[simp] theorem State.setClk_chain : (s.setClk v).chain = s.chain := rfl
@[simp] theorem State.setClk_q : (s.setClk v).q = s.q := rfl
@[simp] theorem State.setClk_data : (s.setClk v).data = s.data := rfl
@[simp] theorem State.setClk_clk : (s.setClk v).clk = v := rfl
@[simp] theorem State.setClk_lat : (s.setClk v).lat = s.lat := rfl
@[simp] theorem State.setClk_fault : (s.setClk v).fault = s.fault := rfl
@[simp] theorem State.setClk_strPort : (s.setClk v).strPort = s.strPort := rfl
@[simp] theorem State.setClk_pending : (s.setClk v).pending = s.pending := rfl
@[simp] theorem State.setClk_response : (s.setClk v).response = s.response := rfl
@[simp] theorem State.setClk_responses : (s.setClk v).responses = s.responses := rfl
end

section
variable (s : State) (v : Level)
@[simp] theorem State.setLat_params : (s.setLat v).params = s.params := rfl
@[simp] theorem State.setLat_buf : (s.setLat v).buf = s.buf := rfl
@[simp] theorem State.setLat_pump : (s.setLat v).pump = s.pump := rfl
@[simp] theorem State.setLat_chain : (s.setLat v).chain = s.chain := rfl
@[simp] theorem State.setLat_q : (s.setLat v).q = s.q := rfl
@[simp] theorem State.setLat_data : (s.setLat v).data = s.data := rfl
@[simp] theorem State.setLat_clk : (s.setLat v).clk = s.clk := rfl
@[simp] theorem State.setLat_lat : (s.setLat v).lat = v := rfl
@[simp] theorem State.setLat_fault : (s.setLat v).fault = s.fault := rfl
@[simp] theorem State.setLat_strPort : (s.setLat v).strPort = s.strPort := rfl
@[simp] theorem State.setLat_pending : (s.setLat v).pending = s.pending := rfl
@[simp] theorem State.setLat_response : (s.setLat v).response = s.response := rfl
@[simp] theorem State.setLat_responses : (s.setLat v).responses = s.responses := rfl
end

section
variable (s : State) (v : Option CommandFault)
@[simp] theorem State.setFault_params : (s.setFault v).params = s.params := rfl
@[simp] theorem State.setFault_buf : (s.setFault v).buf = s.buf := rfl
@[simp] theorem State.setFault_pump : (s.setFault v).pump = s.pump := rfl
@[simp] theorem State.setFault_chain : (s.setFault v).chain = s.chain := rfl
@[simp] theorem State.setFault_q : (s.setFault v).q = s.q := rfl
@[simp] theorem State.setFault_data : (s.setFault v).data = s.data := rfl
@[simp] theorem State.setFault_clk : (s.setFault v).clk = s.clk := rfl
@[simp] theorem State.setFault_lat : (s.setFault v).lat = s.lat := rfl
@[simp] theorem State.setFault_fault : (s.setFault v).fault = v := rfl
@[simp] theorem State.setFault_strPort : (s.setFault v).strPort = s.strPort := rfl
@[simp] theorem State.setFault_pending : (s.setFault v).pending = s.pending := rfl
@[simp] theorem State.setFault_response : (s.setFault v).response = s.response := rfl
@[simp] theorem State.setFault_responses : (s.setFault v).responses = s.responses := rfl
end

section
variable (s : State) (e : Event)
@[simp] theorem State.emit_params : (s.emit e).params = s.params := rfl
@[simp] theorem State.emit_buf : (s.emit e).buf = s.buf := rfl
@[simp] theorem State.emit_pump : (s.emit e).pump = s.pump := rfl
@[simp] theorem State.emit_chain : (s.emit e).chain = s.chain := rfl
@[simp] theorem State.emit_q : (s.emit e).q = s.q := rfl
@[simp] theorem State.emit_data : (s.emit e).data = s.data := rfl
@[simp] theorem State.emit_clk : (s.emit e).clk = s.clk := rfl
@[simp] theorem State.emit_lat : (s.emit e).lat = s.lat := rfl
@[simp] theorem State.emit_fault : (s.emit e).fault = s.fault := rfl
@[simp] theorem State.emit_strPort : (s.emit e).strPort = s.strPort := rfl
@[simp] theorem State.emit_pending : (s.emit e).pending = s.pending := rfl
@[simp] theorem State.emit_response : (s.emit e).response = s.response ++ [e] := rfl
@[simp] theorem State.emit_responses : (s.emit e).responses = s.responses := rfl
end

section
variable (c : Command) (rest : List Command) (s : State)
@[simp] theorem beginCommand_params : (beginCommand c rest s).params = s.params := rfl
@[simp] theorem beginCommand_buf : (beginCommand c rest s).buf = s.buf := rfl
@[simp] theorem beginCommand_pump : (beginCommand c rest s).pump = s.pump := rfl
@[simp] theorem beginCommand_chain : (beginCommand c rest s).chain = s.chain := rfl
@[simp] theorem beginCommand_q : (beginCommand c rest s).q = s.q := rfl
@[simp] theorem beginCommand_data : (beginCommand c rest s).data = s.data := rfl
@[simp] theorem beginCommand_clk : (beginCommand c rest s).clk = s.clk := rfl
@[simp] theorem beginCommand_lat : (beginCommand c rest s).lat = s.lat := rfl
@[simp] theorem beginCommand_fault : (beginCommand c rest s).fault = s.fault := rfl
@[simp] theorem beginCommand_strPort : (beginCommand c rest s).strPort = c.str := rfl
@[simp] theorem beginCommand_pending : (beginCommand c rest s).pending = rest := rfl
@[simp] theorem beginCommand_response : (beginCommand c rest s).response = [] := rfl
@[simp] theorem beginCommand_responses : (beginCommand c rest s).responses = s.responses := rfl
end

section
variable (s : State)
@[simp] theorem finishCommand_params : (finishCommand s).params = s.params := rfl
@[simp] theorem finishCommand_buf : (finishCommand s).buf = s.buf := rfl
@[simp] theorem finishCommand_pump : (finishCommand s).pump = s.pump := rfl
@[simp] theorem finishCommand_chain : (finishCommand s).chain = s.chain := rfl
@[simp] theorem finishCommand_q : (finishCommand s).q = s.q := rfl
@[simp] theorem finishCommand_data : (finishCommand s).data = s.data := rfl
@[simp] theorem finishCommand_clk : (finishCommand s).clk = s.clk := rfl
@[simp] theorem finishCommand_lat : (finishCommand s).lat = s.lat := rfl
@[simp] theorem finishCommand_fault : (finishCommand s).fault = s.fault := rfl
@[simp] theorem finishCommand_strPort : (finishCommand s).strPort = [] := rfl
@[simp] theorem finishCommand_pending : (finishCommand s).pending = s.pending := rfl
@[simp] theorem finishCommand_response : (finishCommand s).response = [] := rfl
@[simp] theorem finishCommand_responses : (finishCommand s).responses = s.responses ++ [s.response] := rfl
end

section
variable (cs : List Command) (s : State)
@[simp] theorem issue_params : (issue cs s).params = s.params := rfl
@[simp] theorem issue_buf : (issue cs s).buf = s.buf := rfl
@[simp] theorem issue_pump : (issue cs s).pump = s.pump := rfl
@[simp] theorem issue_chain : (issue cs s).chain = s.chain := rfl
@[simp] theorem issue_q : (issue cs s).q = s.q := rfl
@[simp] theorem issue_data : (issue cs s).data = s.data := rfl
@[simp] theorem issue_clk : (issue cs s).clk = s.clk := rfl
@[simp] theorem issue_lat : (issue cs s).lat = s.lat := rfl
@[simp] theorem issue_fault : (issue cs s).fault = s.fault := rfl
@[simp] theorem issue_strPort : (issue cs s).strPort = s.strPort := rfl
@[simp] theorem issue_pending : (issue cs s).pending = s.pending ++ cs := rfl
@[simp] theorem issue_response : (issue cs s).response = s.response := rfl
@[simp] theorem issue_responses : (issue cs s).responses = s.responses := rfl
end

end Sys2Proof.Machine
end

