-- ==== Sys2Proof/Laws/Ops.lean ====
section
/-! SUPPORT. What each shared operation does, said once. -/
namespace Sys2Proof.Machine

/-- R131, bit by bit: `DATA` enters at bit 0 and every other bit comes from the stage below. -/
theorem getLsbD_shiftIn (chain : Word) (d : Level) (k : Nat) (hk : k < 16) :
    (shiftIn chain d).getLsbD k = if k = 0 then d else chain.getLsbD (k - 1) := by
  unfold shiftIn
  rw [BitVec.getLsbD_append, BitVec.getLsbD_ofBool, BitVec.getLsbD_extractLsb']
  by_cases h0 : k = 0
  · simp [h0]
  · have : k - 1 < 15 := by omega
    simp [h0, this]

theorem driveData_eq (v : Level) (s : State) : driveData v s = { s with data := v } := rfl

/-- A rising edge of `CLK` shifts (R134). -/
theorem driveClock_rise (s : State) (h : s.clk = false) :
    driveClock true s = { s with clk := true, chain := shiftIn s.chain s.data } := by
  simp [driveClock, h, State.setClk, State.setChain]

/-- Every other drive of `CLK` only sets its level (R134). -/
theorem driveClock_noRise (v : Level) (s : State) (h : ¬(s.clk = false ∧ v = true)) :
    driveClock v s = { s with clk := v } := by
  rw [driveClock, if_neg h]
  rfl

/-- A rising edge of `LAT` latches and is recorded in the trace (R135). -/
theorem driveLatch_rise (s : State) (h : s.lat = false) :
    driveLatch true s =
      { s with lat := true, q := s.chain, response := s.response ++ [.latched s.chain] } := by
  simp [driveLatch, h, State.setLat, State.setQ, State.emit]

/-- Every other drive of `LAT` only sets its level (R135). -/
theorem driveLatch_noRise (v : Level) (s : State) (h : ¬(s.lat = false ∧ v = true)) :
    driveLatch v s = { s with lat := v } := by
  rw [driveLatch, if_neg h]
  rfl

/-- One round of a push has exactly one rising edge, whatever `CLK` was before (R136). -/
theorem shiftBit_eq (v : Level) (s : State) :
    shiftBit v s = { s with data := v, clk := true, chain := shiftIn s.chain v } := by
  simp only [shiftBit, driveData_eq]
  rw [driveClock_noRise false _ (by simp), driveClock_rise _ rfl]

/-- Eight shifts replace the low byte and move the old low byte up (R41, R42). -/
theorem shiftIn_eight (chain : Word) (b : Byte) :
    shiftIn (shiftIn (shiftIn (shiftIn (shiftIn (shiftIn (shiftIn (shiftIn chain
      (b.getLsbD 7)) (b.getLsbD 6)) (b.getLsbD 5)) (b.getLsbD 4)) (b.getLsbD 3)) (b.getLsbD 2)) (b.getLsbD 1))
      (b.getLsbD 0) = chain.extractLsb' 0 8 ++ b := by
  apply BitVec.eq_of_getLsbD_eq
  intro k hk
  rw [BitVec.getLsbD_append, BitVec.getLsbD_extractLsb']
  interval_cases k <;>
    simp (disch := omega) only [getLsbD_shiftIn, reduceIte, Nat.reduceSub, Nat.reduceLT, Nat.reduceAdd, one_ne_zero,
      OfNat.ofNat_ne_zero, decide_true, Bool.true_and]

/-- R136: the net effect of a push. -/
theorem pushByte_eq (b : Byte) (s : State) :
    pushByte b s =
      { s with chain := s.chain.extractLsb' 0 8 ++ b, data := b.getLsbD 0, clk := true } := by
  simp only [pushByte, List.foldl_cons, List.foldl_nil, shiftBit_eq, shiftIn_eight]

/-- R137: the net effect of a latch pulse: exactly one rising edge, whatever `LAT` was before. -/
theorem latchPulse_eq (s : State) :
    latchPulse s =
      { s with lat := true, q := s.chain, response := s.response ++ [.latched s.chain] } := by
  rw [latchPulse, driveLatch_noRise false _ (by simp), driveLatch_rise _ rfl]

/-- Two pushes leave exactly the two bytes in the chain (R42). -/
theorem extract_append_append (chain : Word) (a b : Byte) :
    (chain.extractLsb' 0 8 ++ a : Word).extractLsb' 0 8 ++ b = a ++ b := by
  apply BitVec.eq_of_getLsbD_eq
  intro k hk
  simp only [BitVec.getLsbD_append, BitVec.getLsbD_extractLsb']
  by_cases h : k < 8
  · simp [h]
  · have : k - 8 < 8 := by omega
    simp [h, this]

/-- R150: the net effect of refreshing a digit, independent of the earlier chain, outputs and levels. -/
theorem refreshDigit_eq (j : Slot) (s : State) :
    refreshDigit j s =
      { s with
        chain := readSlot s j ++ sel s.params j
        q := readSlot s j ++ sel s.params j
        data := (sel s.params j).getLsbD 0
        clk := true
        lat := true
        response := s.response ++ [.latched (readSlot s j ++ sel s.params j)] } := by
  simp only [refreshDigit, pushByte_eq, latchPulse_eq, extract_append_append]

/-- R152: the net effect of a refresh cycle. -/
theorem refreshCycle_eq (s : State) :
    refreshCycle s =
      { s with
        chain := readSlot s 3 ++ sel s.params 3
        q := readSlot s 3 ++ sel s.params 3
        data := (sel s.params 3).getLsbD 0
        clk := true
        lat := true
        response := s.response ++ [.latched (readSlot s 0 ++ sel s.params 0), .latched (readSlot s 1 ++ sel s.params 1),
          .latched (readSlot s 2 ++ sel s.params 2), .latched (readSlot s 3 ++ sel s.params 3)] } := by
  simp only [refreshCycle, refreshDigit_eq, readSlot, List.append_assoc, List.cons_append, List.nil_append]

/-- R201: the first fault is recorded and every illegal command is answered. -/
theorem recordIllegal_eq (f : CommandFault) (w : Word) (s : State) :
    recordIllegal f w s =
      { s with fault := s.fault.or (some f), response := s.response ++ [.fault f w] } := by
  unfold recordIllegal
  cases h : s.fault <;> simp [State.setFault, State.emit, h]

end Sys2Proof.Machine
end

