-- ==== Sys2Proof/Laws/Outputs.lean ====
section
/-! SUPPORT. What the display shows of a latched pair of bytes. -/
namespace Sys2Proof.Machine

/-- R42, R29: the byte pushed first drives the segments. -/
theorem segOut_append (a b : Byte) : segOut (a ++ b : Word) = a := by
  apply BitVec.eq_of_getLsbD_eq
  intro k hk
  rw [segOut, BitVec.getLsbD_extractLsb', BitVec.getLsbD_append]
  simp [hk]

/-- R42, R29: the byte pushed second selects the digits. -/
theorem digSel_append (a b : Byte) : digSel (a ++ b : Word) = b := by
  apply BitVec.eq_of_getLsbD_eq
  intro k hk
  rw [digSel, BitVec.getLsbD_extractLsb', BitVec.getLsbD_append]
  simp [hk]

/-- R151: the digit-select byte where the parameter has the rule's value. -/
theorem sel_eq (p : Params) (h : p.SelectsOneHot) (j : Slot) : sel p j = 1#8 <<< j.toNat := h j

/-- R151: among the bits 0..3 of `SEL(j)` exactly bit `j` is set. -/
theorem sel_getLsbD (p : Params) (h : p.SelectsOneHot) (j k : Slot) :
    (sel p j).getLsbD k.toNat = decide (k = j) := by
  rw [sel_eq p h]
  revert j k
  decide

/-- R151: bits 4..7 of `SEL(j)` are 0. -/
theorem sel_high (p : Params) (h : p.SelectsOneHot) (j : Slot) : (sel p j).extractLsb' 4 4 = 0#4 := by
  rw [sel_eq p h]
  revert j
  decide

/-- A latched digit enables exactly itself (R29, R151). -/
theorem digitEnabled_append_sel (p : Params) (h : p.SelectsOneHot) (a : Byte) (j k : Slot) :
    digitEnabled (a ++ sel p j : Word) k = decide (k = j) := by
  rw [digitEnabled, digSel_append, sel_getLsbD p h]

theorem latchTrace_append (a b : List Event) : latchTrace (a ++ b) = latchTrace a ++ latchTrace b := by
  simp [latchTrace]

end Sys2Proof.Machine
end

