-- ==== Sys2Proof/Laws/PerInstr.lean ====
section
/-! SUPPORT. The family of statements made for each instruction: its word lies in its own row of the opcode map (R65). -/
namespace Sys2Proof.Laws.Row

/-- R65: an instruction's word meets the mask and the match of the instruction's row. -/
def Statement (i : Instr) : Prop := encode i &&& i.op.mask = i.op.matchWord

theorem enc (c : Byte) : Statement (.enc c) := by
  revert c; unfold Statement; decide +kernel

theorem fmt : Statement .fmt := by
  unfold Statement; decide

theorem setd (v : Level) : Statement (.setd v) := by
  revert v; unfold Statement; decide

theorem setc (v : Level) : Statement (.setc v) := by
  revert v; unfold Statement; decide

theorem setl (v : Level) : Statement (.setl v) := by
  revert v; unfold Statement; decide

theorem push (b : Byte) : Statement (.push b) := by
  revert b; unfold Statement; decide +kernel

theorem latch : Statement .latch := by
  unfold Statement; decide

theorem rdig (j : Slot) : Statement (.rdig j) := by
  revert j; unfold Statement; decide

theorem rcyc : Statement .rcyc := by
  unfold Statement; decide

theorem ctrl (smp : Sample) (f : Level) : Statement (.ctrl smp f) := by
  revert smp f; unfold Statement; decide +kernel

theorem conv (smp : Sample) : Statement (.conv smp) := by
  revert smp; unfold Statement; decide +kernel

end Sys2Proof.Laws.Row
end

