-- ==== Sys2Proof/Laws/Step.lean ====
section
/-! SUPPORT. What a step does, said once. -/
namespace Sys2Proof.Machine

theorem step_empty (s : State) (h : s.pending = []) : step s = .next s := by
  simp [step, nextCommand, h, idle]

theorem step_cons (s : State) (c : Command) (rest : List Command) (h : s.pending = c :: rest) :
    step s = finishOutcome (perform c.word (beginCommand c rest s)) := by
  simp [step, nextCommand, h]

theorem perform_ok (w : Word) (i : Instr) (s : State) (h : decode w = .ok i) : perform w s = exec i s := by
  simp [perform, h]

theorem perform_error (w : Word) (f : CommandFault) (s : State) (h : decode w = .error f) :
    perform w s = .next (recordIllegal f w s) := by
  simp [perform, h]

theorem finishOutcome_next (r : Result) (t : State) (h : finishOutcome r = .next t) :
    ∃ u, r = .next u ∧ t = finishCommand u := by
  cases r <;> simp_all [finishOutcome]

/-- R6, R201: everything a step can do. It waits, or performs the next command, or records it as illegal. -/
theorem step_cases (s t : State) (h : step s = .next t) :
    (s.pending = [] ∧ t = s) ∨
    (∃ c rest, s.pending = c :: rest ∧
      ((∃ i u, decode c.word = .ok i ∧ exec i (beginCommand c rest s) = .next u ∧ t = finishCommand u) ∨
       (∃ f, decode c.word = .error f ∧
          t = finishCommand (recordIllegal f c.word (beginCommand c rest s))))) := by
  cases hp : s.pending with
  | nil =>
    rw [step_empty s hp] at h
    exact .inl ⟨rfl, (Host.Outcome.next.inj h).symm⟩
  | cons c rest =>
    rw [step_cons s c rest hp] at h
    obtain ⟨u, hu, rfl⟩ := finishOutcome_next _ _ h
    refine .inr ⟨c, rest, rfl, ?_⟩
    cases hd : decode c.word with
    | ok i =>
      rw [perform_ok _ _ _ hd] at hu
      exact .inl ⟨i, u, rfl, hu, rfl⟩
    | error f =>
      rw [perform_error _ _ _ hd] at hu
      exact .inr ⟨f, rfl, by rw [← Host.Outcome.next.inj hu]⟩

/-- No operation touches the responses of the completed commands. -/
theorem exec_responses (i : Instr) (s t : State) (h : exec i s = .next t) : t.responses = s.responses := by
  cases i <;> simp only [exec, execEnc, execFmt, execSetd, execSetc, execSetl, execPush, execLatch, execRdig, execRcyc,
    execCtrl, execConv, Host.Outcome.next.injEq] at h <;> subst h
  case latch => rw [latchPulse_eq]
  case rdig j => rw [refreshDigit_eq]
  case rcyc => rw [refreshCycle_eq]
  case push b => rw [pushByte_eq]
  case setl v => unfold driveLatch; split <;> rfl
  case setc v => unfold driveClock; split <;> rfl
  all_goals rfl

/-- R29, R132: an operation that adds nothing to the latch trace leaves `Q` as it was; it never takes from the trace. -/
theorem exec_latchTrace (i : Instr) (s t : State) (h : exec i s = .next t) :
    ∃ qs, latchTrace t.response = latchTrace s.response ++ qs ∧ (qs = [] → t.q = s.q) := by
  cases i <;> simp only [exec, execEnc, execFmt, execSetd, execSetc, execSetl, execPush, execLatch, execRdig, execRcyc,
    execCtrl, execConv, Host.Outcome.next.injEq] at h <;> subst h
  case latch => exact ⟨[s.chain], by rw [latchPulse_eq, latchTrace_append]; rfl, by simp⟩
  case rdig j => exact ⟨[readSlot s j ++ sel s.params j], by rw [refreshDigit_eq, latchTrace_append]; rfl, by simp⟩
  case rcyc => exact ⟨_, by rw [refreshCycle_eq, latchTrace_append], by simp [latchTrace]⟩
  case setl v =>
    by_cases hv : s.lat = false ∧ v = true
    · obtain ⟨hl, rfl⟩ := hv
      exact ⟨[s.chain], by rw [driveLatch_rise s hl, latchTrace_append]; rfl, by simp⟩
    · exact ⟨[], by rw [driveLatch_noRise v s hv]; simp, fun _ => by rw [driveLatch_noRise v s hv]⟩
  case setc v =>
    refine ⟨[], ?_, fun _ => ?_⟩ <;> unfold driveClock <;> split <;> simp
  case push b => exact ⟨[], by rw [pushByte_eq]; simp, fun _ => by rw [pushByte_eq]⟩
  all_goals exact ⟨[], by simp [latchTrace, State.emit, State.setPump, driveData, State.setData, State.setBuf],
    fun _ => by simp [State.emit, State.setPump, driveData, State.setData, State.setBuf]⟩

/-- R132, R153: the display trace only grows, and a step that adds nothing to it leaves `Q` as it was. -/
theorem step_displayTrace (s t : State) (h : step s = .next t) :
    ∃ qs, displayTrace t = displayTrace s ++ qs ∧ (qs = [] → t.q = s.q) := by
  rcases step_cases s t h with ⟨-, rfl⟩ | ⟨c, rest, -, ⟨i, u, -, hu, rfl⟩ | ⟨f, -, rfl⟩⟩
  · exact ⟨[], by simp, fun _ => rfl⟩
  · obtain ⟨qs, hq, hk⟩ := exec_latchTrace i _ u hu
    refine ⟨qs, ?_, hk⟩
    have hr : u.responses = s.responses := exec_responses i (beginCommand c rest s) u hu
    have hq' : latchTrace u.response = qs := hq
    rw [displayTrace, finishCommand, hr, List.flatten_append, latchTrace_append, List.flatten_singleton, hq', displayTrace]
  · refine ⟨[], ?_, fun _ => ?_⟩ <;>
      simp [displayTrace, finishCommand, recordIllegal_eq, beginCommand, latchTrace]

end Sys2Proof.Machine
end

