-- ==== Sys2Proof/Tests/Slice0.lean ====
section
/-! SUPPORT. Tests: expected values are those of spec/95_test_vectors.md (or the rule's own example), never the model's answers.
The theorems named test_witness_<Name> show states and operands that meet the hypotheses of the statement of that name. -/
-- One theorem after another: checked side by side, the theorems that the kernel evaluates hold too many threads at once.
set_option Elab.async false

namespace Sys2Proof.Tests

open Sys2Proof.Machine Sys2Proof.Claims

/-- The state an outcome holds; `State.reset` where there is none. -/
def stateOf : Result → State
  | .next t => t
  | .fault _ => State.reset
  | .refused _ => State.reset

/-- A state with the default parameters and the display bus as given. -/
def bus (chain q : Word) (data clk lat : Level) : State :=
  State.powerOn Params.default ⟨chain, q, data, clk, lat⟩

/-- Reset with a string on the string port. -/
def withText (str : List Byte) : State := { State.reset with strPort := str }

/-- Reset with the buffer of the vectors of 2.5. -/
def withBuffer : State := { bus 0x5555 0xFFFF true false true with buf := #v[0xC0, 0xF8, 0xA4, 0x40] }

/-- Reset with other parameters and pump. -/
def withPump (p : Params) (pump : PumpState) : State := { State.reset with params := p, pump := pump }

/-! ### Well-formedness: one ill-formed term for each check -/

theorem test_default_wellFormed : Params.default.WellFormed := by decide +kernel

theorem test_thresholds_refused : ¬({ Params.default with lowPressure := 27 / 100 } : Params).ThresholdsOrdered := by
  decide +kernel

theorem test_band_refused : ¬({ Params.default with vMin := 9 / 2 } : Params).BandOrdered := by decide +kernel

theorem test_scale_refused : ¬({ Params.default with pMax := 0 } : Params).ScalePositive := by decide

theorem test_fullScale_refused : ¬({ Params.default with adcFull := 0 } : Params).FullScalePositive := by decide

theorem test_digits_refused :
    ¬({ Params.default with segDigit := #v[0xC0, 0xF9, 0xA4, 0xB0, 0x19, 0x92, 0x82, 0xF8, 0x80, 0x90] } : Params).DigitsDark := by
  decide

theorem test_point_refused :
    ¬({ Params.default with segDp := 0xFF } : Params).PointDisjoint ∧
    ¬({ Params.default with segBlank := 0x7F } : Params).PointDisjoint ∧
    ¬({ Params.default with segDash := 0x3F } : Params).PointDisjoint := by decide

theorem test_select_refused :
    ¬({ Params.default with sel := #v[0x01, 0x02, 0x04, 0x80] } : Params).SelectsOneHot := by decide

theorem test_operands_wellFormed :
    [Instr.enc 0xFF, .fmt, .setd true, .setc false, .setl true, .push 0, .latch, .rdig 3, .rcyc, .ctrl 1023 true,
      .conv 1023].all Instr.wellFormed = true := by decide

/-! ### Decoding: words written out from R62 and R65, and the vectors of 2.1 -/

/-- R62, one word of every row, bit by bit. -/
theorem test_decode_rows :
    decode 0b0001_0000_0010_1101 = .ok (.enc 0x2D) ∧
    decode 0b0010_0000_0000_0000 = .ok .fmt ∧
    decode 0b0011_0000_0000_0001 = .ok (.setd true) ∧
    decode 0b0100_0000_0000_0000 = .ok (.setc false) ∧
    decode 0b0101_0000_0000_0001 = .ok (.setl true) ∧
    decode 0b0110_0000_1010_0101 = .ok (.push 0xA5) ∧
    decode 0b0111_0000_0000_0000 = .ok .latch ∧
    decode 0b1000_0000_0000_0010 = .ok (.rdig 2) ∧
    decode 0b1001_0000_0000_0000 = .ok .rcyc ∧
    decode 0b1010_1000_1000_1000 = .ok (.ctrl 136 true) ∧
    decode 0b1010_0000_0110_0100 = .ok (.ctrl 100 false) ∧
    decode 0b1011_0011_1001_1001 = .ok (.conv 921) := by decide

/-- 2.1: the illegal words. -/
theorem test_decode_illegal :
    [0x0000#16, 0xFFFF, 0xC000].all (fun w => decide (decode w = .error .illegalOpcode)) = true ∧
    [0x1330#16, 0x2001, 0x3002, 0x7001, 0x8004, 0x9001, 0xA400, 0xAFFF, 0xBBFF, 0xB400].all
      (fun w => decide (decode w = .error .reservedField)) = true := by decide

/-- The host's reading of the opcode table's words. -/
theorem test_decodeTableWord :
    decodeTableWord 16 0xABFF = some (.ctrl 1023 true) ∧ decodeTableWord 16 0xC000 = none := by decide

/-- R69 and 95_test_vectors.md: lines of the programs and their words. -/
theorem test_assembler :
    assembleLine ['P', 'U', 'S', 'H', ' ', '0', 'x', '0', '1', ' ', ';', ' ', 'P', '3'] = some ⟨0x6001, []⟩ ∧
    assembleLine ['C', 'T', 'R', 'L', ' ', '1', '3', '6', ',', ' ', '1'] = some ⟨0xA888, []⟩ ∧
    assembleLine ['E', 'N', 'C', ' ', '\'', '-', '\''] = some ⟨0x102D, []⟩ ∧
    assembleLine ['F', 'M', 'T', ' ', '"', '0', '.', '2', '7', '0', '"'] =
      some ⟨0x2000, [0x30, 0x2E, 0x32, 0x37, 0x30]⟩ ∧
    assembleLine ['R', 'D', 'I', 'G', ' ', '4'] = none := by decide

/-- The model's choices (assumption log entries 17 and 18): a character with no 8-bit code, and a line with no command. -/
theorem test_assembler_choices :
    assembleLine ['F', 'M', 'T', ' ', '"', 'Ā', '"'] = none ∧ assembleLine ['E', 'N', 'C', ' ', '\'', 'Ā', '\''] = none ∧
    assembleLine ['C', 'O', 'N', 'V', ' ', '\'', 'Ā', '\''] = none ∧
    assembleLine ['C', 'T', 'R', 'L', ' ', '\'', 'Ā', '\'', ',', ' ', '1'] = none ∧
    assembleLine ['E', 'N', 'C', ' ', '\'', 'ÿ', '\''] = some ⟨0x10FF, []⟩ ∧ assembleLine [' ', ';', 'x'] = none := by
  decide +kernel

/-! ### The operations -/

/-- 2.2: the point, the dash, the digits' two neighbours, the terminator and a high code. -/
theorem test_enc :
    ([0x30#8, 0x32, 0x39, 0x2E, 0x2D, 0x3F, 0x2F, 0x3A, 0x00, 0x80, 0xFF].map fun c =>
      (stateOf (exec (.enc c) State.reset)).response) =
    [[.code 0xC0], [.code 0xA4], [.code 0x90], [.code 0x7F], [.code 0xBF], [.code 0xFF], [.code 0xFF], [.code 0xFF],
      [.code 0xFF], [.code 0xFF], [.code 0xFF]] := by decide

/-- 2.3: strings with their buffers, slot 0 first. -/
theorem test_fmt :
    ([([0x30, 0x2E, 0x32, 0x37, 0x30], #v[0xC0, 0xF8, 0xA4, 0x40]),
      ([0x20, 0x30, 0x2E, 0x32, 0x37], #v[0xF8, 0xA4, 0x40, 0xFF]),
      ([0x32, 0x2E, 0x30, 0x30, 0x30], #v[0xC0, 0xC0, 0xC0, 0x24]),
      ([0x31, 0x32, 0x33, 0x34, 0x35, 0x2E, 0x36], #v[0x82, 0x12, 0x99, 0xB0]),
      ([], #v[0xFF, 0xFF, 0xFF, 0xFF]),
      ([0x2E], #v[0x7F, 0xFF, 0xFF, 0xFF])] : List (List Byte × Vector Byte 4)).all
      (fun x => decide ((stateOf (exec .fmt (withText x.1))).buf = x.2)) = true := by decide

/-- 2.3: points that meet, lead and trail, and the embedded terminator. -/
theorem test_fmt_points :
    ([([0x2E, 0x2E], #v[0x7F, 0xFF, 0xFF, 0xFF]),
      ([0x2E, 0x35], #v[0x92, 0x7F, 0xFF, 0xFF]),
      ([0x2E, 0x32, 0x37, 0x30, 0x31], #v[0xF9, 0xC0, 0xF8, 0xA4]),
      ([0x30, 0x32, 0x37, 0x30, 0x2E], #v[0x40, 0xF8, 0xA4, 0xC0]),
      ([0x2D, 0x30, 0x2E, 0x30, 0x35], #v[0x92, 0xC0, 0x40, 0xBF]),
      ([0x38, 0x2E, 0x38, 0x2E, 0x38, 0x2E, 0x38, 0x2E], #v[0x00, 0x00, 0x00, 0x00]),
      ([0x41, 0x2E, 0x42], #v[0xFF, 0x7F, 0xFF, 0xFF]),
      ([0x31, 0x00, 0x32], #v[0xF9, 0xFF, 0xFF, 0xFF])] : List (List Byte × Vector Byte 4)).all
      (fun x => decide ((stateOf (exec .fmt (withText x.1))).buf = x.2)) = true := by decide

/-- R133's example. -/
theorem test_setd :
    (stateOf (exec (.setd true) (bus 0x1234 0 false false false))).data = true ∧
    (stateOf (exec (.setd true) (bus 0x1234 0 false false false))).chain = 0x1234 := by decide

/-- R134's example, and 2.4 sequence A: bit 15 is lost and there is no edge from 1. -/
theorem test_setc :
    (stateOf (exec (.setc true) (bus 0x1234 0 true false false))).chain = 0x2469 ∧
    (stateOf (exec (.setc true) (bus 0x8001 0 true false true))).chain = 0x0003 ∧
    (stateOf (exec (.setc true) (bus 0x8001 0 true true true))).chain = 0x8001 ∧
    (stateOf (exec (.setc false) (bus 0x8001 0 true true true))).clk = false := by decide

/-- R135's example, and 2.4 sequence A: no edge from 1. -/
theorem test_setl :
    (stateOf (exec (.setl true) (bus 0x2469 0 false false false))).q = 0x2469 ∧
    (stateOf (exec (.setl true) (bus 0x2469 0 false false false))).response = [.latched 0x2469] ∧
    (stateOf (exec (.setl true) (bus 0x0006 0 false true true))).q = 0 ∧
    (stateOf (exec (.setl true) (bus 0x0006 0 false true true))).response = [] := by decide

/-- 2.4 sequence B and R136's example. -/
theorem test_push :
    (stateOf (exec (.push 0x01) (bus 0x1234 0 false true false))).chain = 0x3401 ∧
    (stateOf (exec (.push 0xA5) (bus 0xFF00 0xFF00 false true true))).chain = 0x00A5 ∧
    (stateOf (exec (.push 0xA5) (bus 0xFF00 0xFF00 false true true))).data = true ∧
    (stateOf (exec (.push 0xA5) (bus 0xFF00 0xFF00 false true true))).q = 0xFF00 := by decide

/-- R137's example. -/
theorem test_latch :
    (stateOf (exec .latch (bus 0x3401 0 true true true))).q = 0x3401 ∧
    (stateOf (exec .latch (bus 0x3401 0 true true true))).response = [.latched 0x3401] := by decide

/-- 2.5: RDIG 0 and RDIG 3. -/
theorem test_rdig :
    (stateOf (exec (.rdig 0) withBuffer)).q = 0xC001 ∧ (stateOf (exec (.rdig 0) withBuffer)).data = true ∧
    (stateOf (exec (.rdig 3) withBuffer)).q = 0x4008 ∧ (stateOf (exec (.rdig 3) withBuffer)).data = false := by
  decide

/-- 2.5: the trace and the end of RCYC. -/
theorem test_rcyc :
    (stateOf (exec .rcyc withBuffer)).response =
      [.latched 0xC001, .latched 0xF802, .latched 0xA404, .latched 0x4008] ∧
    (stateOf (exec .rcyc withBuffer)).chain = 0x4008 ∧ (stateOf (exec .rcyc withBuffer)).data = false := by
  decide +kernel

/-- 2.6: pressures. -/
theorem test_conv :
    ([(0, -3 / 20), (102, -3 / 6820), (218, 1157 / 6820), (286, 167 / 620), (921, 8187 / 6820), (1023, 27 / 20)] :
      List (Sample × Rat)).all
      (fun x => decide ((stateOf (exec (.conv x.1) State.reset)).response = [.pressure x.2])) = true := by
  decide +kernel

/-- 2.7, default parameters: pump before, sample, flow, and the record. -/
theorem test_ctrl :
    ([(.off, 218, true, .control .on [⟨.on, 1000⟩]),
      (.off, 219, true, .control .off []),
      (.on, 219, true, .control .on []),
      (.on, 286, true, .control .on []),
      (.on, 287, true, .control .off [⟨.off, 10⟩]),
      (.off, 287, true, .control .off [⟨.off, 10⟩]),
      (.on, 170, true, .control .on [⟨.on, 1000⟩]),
      (.on, 100, false, .control .off [⟨.off, 10⟩]),
      (.off, 0, true, .control .on [⟨.on, 1000⟩])] : List (PumpState × Sample × Level × Event)).all
      (fun x => decide ((stateOf (exec (.ctrl x.2.1 x.2.2.1) (withPump Params.default x.1))).response = [x.2.2.2])) = true := by
  decide +kernel

/-- 2.7, other parameters: no settle on a self-loop, the fail-safe's band edges, and thresholds without a gap. -/
theorem test_ctrl_parameters :
    ([({ Params.default with settleOnSelfLoop := false }, .on, 170, .control .on [⟨.on, 0⟩]),
      ({ Params.default with failsafeOob := true }, .off, 103, .control .on [⟨.on, 1000⟩]),
      ({ Params.default with failsafeOob := true }, .off, 102, .control .off [⟨.off, 10⟩]),
      ({ Params.default with failsafeOob := true }, .on, 921, .control .off [⟨.off, 10⟩]),
      ({ Params.default with lowPressure := 3 / 10, highPressure := 1 / 5 }, .off, 239,
        .control .off [⟨.on, 1000⟩, ⟨.off, 10⟩])] : List (Params × PumpState × Sample × Event)).all
      (fun x => decide ((stateOf (exec (.ctrl x.2.2.1 true) (withPump x.1 x.2.1))).response = [x.2.2.2])) = true := by
  decide +kernel

/-! ### The step -/

/-- Program P5: the first fault stays, the second response carries its own code and word, and the block goes on. -/
theorem test_illegal_commands :
    (stateOf (runCommands [⟨0xC000, []⟩, ⟨0x3002, []⟩, ⟨0x3001, []⟩] State.reset)).fault = some .illegalOpcode ∧
    (stateOf (runCommands [⟨0xC000, []⟩, ⟨0x3002, []⟩, ⟨0x3001, []⟩] State.reset)).responses =
      [[.fault .illegalOpcode 0xC000], [.fault .reservedField 0x3002], []] ∧
    (stateOf (runCommands [⟨0xC000, []⟩, ⟨0x3002, []⟩, ⟨0x3001, []⟩] State.reset)).data = true := by decide

/-- R201: the codes. -/
theorem test_fault_codes :
    faultCode none = 0 ∧ faultCode (some .illegalOpcode) = 1 ∧ faultCode (some .reservedField) = 2 := by decide

/-- The word the host places is the one the next step runs. -/
theorem test_withFetchWord :
    (stateOf (step (State.reset.withFetchWord 16 0x102D))).responses = [[.code 0xBF]] := by decide

/-- R26, D24: the relay line of a pump that is on, by polarity. -/
theorem test_relay_level :
    relayLevel (withPump Params.default .on) = true ∧
    relayLevel (withPump { Params.default with relayActiveHigh := false } .on) = false := by decide

/-- R101: the glyph 2 lights a, b, d, e and g. -/
theorem test_glyph_segments :
    [Segment.a, .b, .c, .d, .e, .f, .g, .dp].map (lights 0xA4) =
      [true, true, false, true, true, false, true, false] := by decide

/-! ### Witnesses for the hypotheses of the statements -/

theorem test_witness_DecodeOfEncodeIsTheInstruction : (Instr.ctrl 1023 true).wellFormed = true := by decide

theorem test_witness_LegalWordIsTheEncoding : decode 0xABFF = .ok (.ctrl 1023 true) := by decide

theorem test_witness_RowSelectsExactlyItsWords : 0x8003 &&& Op.rdig.mask = Op.rdig.matchWord := by decide

theorem test_witness_DecodeFollowsRule66 :
    (0xC000#16).extractLsb' 12 4 ∈ [0x0#4, 0xC#4, 0xD#4, 0xE#4, 0xF#4] ∧
    (0xBFFF#16).extractLsb' 12 4 ∉ [0x0#4, 0xC#4, 0xD#4, 0xE#4, 0xF#4] := by decide

theorem test_witness_PointLightsOnlyTheDecimalPoint :
    Params.default.WellFormed ∧ GlyphCode Params.default 0x90 ∧ (0x90 : Byte) ≠ Params.default.segDp ∧
    GlyphCode Params.default Params.default.segDp :=
  ⟨by decide +kernel, .inl ⟨9, by decide +kernel⟩, by decide +kernel, .inr (.inr (.inl rfl))⟩

theorem test_witness_CombinedCodesAreTheTable :
    (withText [0x32, 0x2E]).params = Params.default ∧ (withText [0x32, 0x2E]).strPort = [0x32, 0x2E#8] ∧
    (0x32 : Byte) ≠ 0 := ⟨rfl, rfl, by decide⟩

theorem test_witness_TerminatorEndsTheString : ∀ c ∈ [0x31#8], c ≠ 0x00#8 := by decide

theorem test_witness_OnlyTheLastEightCharactersCount :
    (∀ c ∈ [0x31#8] ++ [0x38, 0x2E, 0x38, 0x2E, 0x38, 0x2E, 0x38, 0x2E], c ≠ 0x00#8) ∧
    8 ≤ [0x38#8, 0x2E, 0x38, 0x2E, 0x38, 0x2E, 0x38, 0x2E].length := by decide

theorem test_witness_FivePrintableCharactersFillFourSlots :
    ∀ x ∈ [0x30#8, 0x32, 0x37, 0x30], x ≠ 0x00#8 ∧ x ≠ 0x2E#8 := by decide

theorem test_witness_FourCharactersReadLeftToRight :
    (withText [0x31, 0x32, 0x33, 0x34]).strPort = [0x31#8, 0x32, 0x33, 0x34] ∧
    ∀ x ∈ [0x31#8, 0x32, 0x33, 0x34], x ≠ 0x00#8 ∧ x ≠ 0x2E#8 := ⟨rfl, by decide⟩

/-- Both arms of the edge: a rising one, and one from 1. -/
theorem test_witness_SetcShiftsOnARisingEdge :
    ((bus 0 0 true false false).clk = false ∧ true = true) ∧ ¬((bus 0 0 true true false).clk = false ∧ true = true) := by
  decide

theorem test_witness_SetlLatchesOnARisingEdge :
    ((bus 0 0 true false false).lat = false ∧ true = true) ∧ ¬((bus 0 0 true true true).lat = false ∧ true = true) := by
  decide

/-- The shortest and the longest shift the statement speaks of. -/
theorem test_witness_LatchAfterAPartialShift :
    ([] : List Level).length ≤ 16 ∧ (List.replicate 16 true).length ≤ 16 := by decide

theorem test_witness_RdigShowsOneSlot : withBuffer.params.SelectsOneHot := by decide

theorem test_witness_RcycShowsTheFourSlots : withBuffer.params.SelectsOneHot := by decide

theorem test_witness_RefreshCycleEnablesOneDigitAtATime : withBuffer.params.SelectsOneHot := by decide

theorem test_witness_RdigLightsTheSlotsSegments : withBuffer.params.SelectsOneHot := by decide

theorem test_witness_OneDigitStaysEnabled :
    (∃ t, exec (.rdig 3) withBuffer = .next t) ∧ (∃ t, exec .rcyc withBuffer = .next t) ∧
    (∃ t, exec (.push 0xFF) (bus 0 0xC001 true true true) = .next t) ∧
    (∀ v, Instr.push 0xFF ≠ .setl v) ∧ Instr.push 0xFF ≠ .latch ∧
    OneDigitEnabled (bus 0 0xC001 true true true).q ∧ withBuffer.params.SelectsOneHot ∧
    (bus 0 0xC001 true true true).params.SelectsOneHot :=
  ⟨⟨_, rfl⟩, ⟨_, rfl⟩, ⟨_, rfl⟩, by decide, by decide, ⟨0, by decide⟩, by decide, by decide⟩

theorem test_witness_ConvReturnsTheLinearPressure :
    State.reset.params.adcFull ≠ 0 ∧ State.reset.params.vMax ≠ State.reset.params.vMin ∧
    State.reset.params = Params.default := ⟨by decide, by decide +kernel, rfl⟩

/-- The edges of the band (2.6). -/
theorem test_witness_OutOfBandSamplesByDefault :
    State.reset.params = Params.default ∧
    [102, 103, 920, 921].map (outOfBand Params.default) = [true, false, false, true] := ⟨rfl, by decide +kernel⟩

theorem test_witness_PressureIsAffineAndIncreasing :
    Params.default.adcFull ≠ 0 ∧ Params.default.vMin < Params.default.vMax ∧ 0 < Params.default.pMax ∧
    0 < Params.default.vRef ∧ (0 : Sample).toNat < (1 : Sample).toNat := by decide +kernel

/-- Each of the three outcomes of CTRL, and both rules at once. -/
theorem test_witness_CtrlIsOneControllerStep :
    (onFire (conditions Params.default 218 true) = true ∧ offFire (conditions Params.default 218 true) = false) ∧
    (onFire (conditions Params.default 286 true) = false ∧ offFire (conditions Params.default 286 true) = false) ∧
    (onFire (conditions Params.default 287 true) = false ∧ offFire (conditions Params.default 287 true) = true) ∧
    onFire (conditions { Params.default with lowPressure := 3 / 10, highPressure := 1 / 5 } 239 true) = true ∧
    offFire (conditions { Params.default with lowPressure := 3 / 10, highPressure := 1 / 5 } 239 true) = true := by
  decide +kernel

/-- Every row of the table: low, the two edges of the dead band, high, no flow, and the gate. -/
theorem test_witness_TransitionTable :
    Params.default.lowPressure < Params.default.highPressure ∧
    (Params.default.failsafeOob && outOfBand Params.default 218) = false ∧
    pressure Params.default 218 < Params.default.lowPressure ∧
    (Params.default.lowPressure ≤ pressure Params.default 219 ∧ pressure Params.default 286 ≤ Params.default.highPressure) ∧
    Params.default.highPressure < pressure Params.default 287 ∧
    (({ Params.default with failsafeOob := true } : Params).failsafeOob &&
      outOfBand { Params.default with failsafeOob := true } 102) = true := by decide +kernel

theorem test_witness_RelayLineFollowsThePump :
    (relayWrites { Params.default with lowPressure := 3 / 10, highPressure := 1 / 5 }
      (conditions { Params.default with lowPressure := 3 / 10, highPressure := 1 / 5 } 239 true) .off).2.map
      RelayWrite.level = [.on, .off] := by decide +kernel

theorem test_witness_PumpTurnsOnOnlyWithLowPressureAndFlow :
    (∃ t, exec (.ctrl 218 true) (withPump Params.default .off) = .next t ∧ t.pump = .on) ∧
    (∃ t, exec (.ctrl 286 true) (withPump Params.default .on) = .next t ∧ t.pump = .on) :=
  ⟨⟨_, rfl, by decide +kernel⟩, ⟨_, rfl, by decide +kernel⟩⟩

/-- The samples on either side of the thresholds. -/
theorem test_witness_DeadBandHoldsThePump :
    (Params.default.failsafeOob && outOfBand Params.default 218) = false ∧
    (Params.default.failsafeOob && outOfBand Params.default 219) = false ∧
    pressure Params.default 218 < Params.default.lowPressure ∧
    Params.default.lowPressure ≤ pressure Params.default 219 ∧
    pressure Params.default 219 ≤ Params.default.highPressure ∧
    Params.default.highPressure < pressure Params.default 287 ∧ State.reset.pump = .off := by decide +kernel

/-- Each element is changed by one of its writers. -/
theorem test_witness_EachElementHasOnlyItsWriters :
    (stateOf (exec .fmt (withText [0x30]))).buf ≠ (withText [0x30]).buf ∧
    (stateOf (exec (.ctrl 218 true) State.reset)).pump ≠ State.reset.pump ∧
    (stateOf (exec (.push 0xFF) State.reset)).chain ≠ State.reset.chain ∧
    (stateOf (exec .latch (bus 1 0 false false false))).q ≠ (bus 1 0 false false false).q ∧
    (stateOf (exec (.setd true) State.reset)).data ≠ State.reset.data ∧
    (stateOf (exec (.setc true) State.reset)).clk ≠ State.reset.clk ∧
    (stateOf (exec (.setl true) State.reset)).lat ≠ State.reset.lat := by decide +kernel

theorem test_witness_RepeatingAnOperation :
    (∀ b, Instr.rcyc ≠ .push b) ∧
    (∃ t, exec .rcyc withBuffer = .next t ∧ t.response = withBuffer.response ++ (cycleTrace withBuffer.params withBuffer.buf).map .latched) ∧
    (∃ t, exec (.ctrl 218 true) State.reset = .next t ∧
      t.response = State.reset.response ++ [.control t.pump [⟨.on, 1000⟩]]) :=
  ⟨by decide, ⟨_, rfl, by decide +kernel⟩, ⟨_, rfl, by decide +kernel⟩⟩

theorem test_witness_OnlyFmtReadsTheStringPort : Instr.rcyc ≠ .fmt := by decide

theorem test_witness_ControllerIgnoresTheDisplay :
    (bus 0x1234 0xABCD true true true).params = State.reset.params ∧
    (bus 0x1234 0xABCD true true true).pump = State.reset.pump ∧
    bus 0x1234 0xABCD true true true ≠ State.reset := ⟨rfl, rfl, by decide +kernel⟩

theorem test_witness_StepRunsTheDecodedInstruction :
    (issue [⟨0x2000, [0x30]⟩] State.reset).pending = ⟨0x2000, [0x30]⟩ :: [] ∧
    decode 0x2000 = .ok .fmt ∧ decode 0x3002 = .error .reservedField ∧
    Instr.fmt.wellFormed = true ∧
    ∃ t, exec .fmt { issue [⟨0x2000, [0x30]⟩] State.reset with
      pending := [], strPort := [0x30], response := [] } = .next t :=
  ⟨rfl, by decide, by decide, rfl, _, rfl⟩

theorem test_witness_IllegalCommandIsRecordedOnly :
    decode 0x3002 = .error .reservedField ∧ decode 0xC000 = .error .illegalOpcode := by decide

/-- A recorded fault, and a legal word at the head of the queue. -/
theorem test_witness_FaultIsSticky :
    (∃ t, step (issue [⟨0x3002, []⟩] { State.reset with fault := some .illegalOpcode }) = .next t) ∧
    ({ State.reset with fault := some .illegalOpcode } : State).fault ≠ none ∧
    ∀ c ∈ (issue [⟨0x3001, []⟩] State.reset).pending.head?, legalWord c.word = true :=
  ⟨⟨_, rfl⟩, by decide, by decide⟩

theorem test_witness_NoCommandNoChange : State.reset.pending = [] := rfl

theorem test_witness_TheBlockNeverStops : (issue [⟨0xC000, []⟩] State.reset).pending ≠ [] := by decide

theorem test_witness_CommandsRunInIssueOrder : withBuffer.pending = [] := rfl

theorem test_witness_MacrosAndTheirExpansionsAgree :
    withBuffer.pending = [] ∧ ((∃ b, Instr.rdig 2 = .push b ∧ rdigParts withBuffer 2 = pushLines b) ∨
      (Instr.rdig 2 = .latch ∧ rdigParts withBuffer 2 = latchLines) ∨
      (∃ j, Instr.rdig 2 = .rdig j ∧ rdigParts withBuffer 2 = rdigParts withBuffer j) ∨
      (Instr.rdig 2 = .rcyc ∧ rdigParts withBuffer 2 = rcycParts)) :=
  ⟨rfl, .inr (.inr (.inl ⟨2, rfl, rfl⟩))⟩

theorem test_witness_IterIsOneLoopIteration :
    State.reset.pending = [] ∧ 0 < (HostParams.ofFormat ⟨5, 3, true⟩).refreshRepeat := by decide

theorem test_witness_BufferStaysValid :
    BufferValid State.reset ∧ ∃ t, step (issue [⟨0x2000, [0x31]⟩] State.reset) = .next t := by
  refine ⟨fun j => ?_, _, rfl⟩
  have h : readSlot State.reset j = Params.default.segBlank := by revert j; decide
  exact .inl (.inr (.inl h))

theorem test_witness_ResetBufferIsValid :
    Params.default.segBlank = 0xFF ∧ ResetState Params.default State.reset := ⟨rfl, _, rfl⟩

theorem test_witness_StepsEndAtABoundary :
    AtBoundary State.reset ∧ (∃ t, step (issue [⟨0x9000, []⟩] State.reset) = .next t) ∧
    ResetState Params.default (bus 0x1234 0xABCD false true true) := ⟨⟨rfl, rfl⟩, ⟨_, rfl⟩, _, rfl⟩

theorem test_witness_ResetValues : ResetState Params.default (bus 0x1234 0xABCD false true true) := ⟨_, rfl⟩

theorem test_witness_OutputsBeforeTheFirstLatch :
    ResetState Params.default (bus 0 0xFFFF false true true) ∧ Params.default.SelectsOneHot := ⟨⟨_, rfl⟩, by decide⟩

/-- Is the outcome a next state? -/
def isNext : Result → Bool
  | .next _ => true
  | .fault _ => false
  | .refused _ => false

theorem next_stateOf (r : Result) (h : isNext r = true) : r = .next (stateOf r) := by
  cases r with
  | next t => rfl
  | fault f => cases h
  | refused f => cases h

/-- The state after a text is formatted and refreshed, from reset. -/
def refreshed : State := stateOf (runCommands [⟨0x2000, [0x30]⟩, ⟨0x9000, []⟩] State.reset)

/-- R239 `displayed`: after FMT, RCYC and ENC, Q was last written by the RCYC. -/
theorem test_witness_DisplayedStateEnablesOneDigit :
    Displayed #v[0xC0, 0xFF, 0xFF, 0xFF] State.reset [⟨0x2000, [0x30]⟩, ⟨0x9000, []⟩, ⟨0x102D, []⟩]
      (stateOf (runCommands [⟨0x102D, []⟩] refreshed)) ∧
    (stateOf (runCommands [⟨0x102D, []⟩] refreshed)).params.SelectsOneHot :=
  ⟨⟨by decide +kernel, rfl, [⟨0x2000, [0x30]⟩], ⟨0x9000, []⟩, [⟨0x102D, []⟩], refreshed, rfl, .inr (by decide),
    next_stateOf _ (by decide +kernel), next_stateOf _ (by decide +kernel), by decide +kernel⟩,
    by decide +kernel⟩

/-- R239: a state to which no RDIG or RCYC led is not `displayed`, whatever pattern a LATCH left in `Q`. -/
theorem test_not_displayed_after_latch (b : Vector Byte 4) :
    ¬Displayed b (bus 0x1201 0 false false false) [⟨0x7000, []⟩]
      (stateOf (runCommands [⟨0x7000, []⟩] (bus 0x1201 0 false false false))) := by
  rintro ⟨-, -, before, c, after, u, hcs, hc, -⟩
  have hm : c ∈ [(⟨0x7000, []⟩ : Command)] := hcs ▸ by simp
  obtain rfl := List.mem_singleton.mp hm
  revert hc
  rintro (⟨j, hj⟩ | h)
  · revert hj; revert j; decide
  · revert h; decide

end Sys2Proof.Tests
end

section
/-! PROOFS. What an operation does with the host's side of the state: the commands that wait (log entry 2) and the responses of
R11 (log entry 4). It reads neither, it only adds events; so commands issued together run as those issued one by one (R6). -/
namespace Sys2Proof.Machine

/-- The state with other commands waiting and other responses recorded; the block's own elements (R20) are as they were. -/
def State.withHostSide (s : State) (cs : List Command) (r : List Event) (rs : List (List Event)) : State :=
  { s with pending := cs, response := r, responses := rs }

/-- R11: `f` adds events to the response, and neither they nor anything else it does depends on the host's side of the state,
which it otherwise leaves alone. -/
def IgnoresHostSide (f : State → State) : Prop :=
  ∀ s : State, ∃ es : List Event, (f s).response = s.response ++ es ∧
    ∀ cs r rs, f (s.withHostSide cs r rs) = (f s).withHostSide cs (r ++ es) rs

/-- An operation that adds no event. -/
theorem IgnoresHostSide.of_silent {f : State → State} (hresp : ∀ s, (f s).response = s.response)
    (hf : ∀ (s : State) cs r rs, f (s.withHostSide cs r rs) = (f s).withHostSide cs r rs) : IgnoresHostSide f :=
  fun s => ⟨[], by rw [hresp, List.append_nil], fun cs r rs => by rw [hf, List.append_nil]⟩

theorem ignoresHostSide_driveClock (v : Level) : IgnoresHostSide (driveClock v) := by
  refine .of_silent (fun s => ?_) fun s cs r rs => ?_
  · by_cases h : s.clk = false ∧ v = true <;> simp [driveClock, h]
  · by_cases h : s.clk = false ∧ v = true
    · obtain ⟨hclk, rfl⟩ := h
      rw [driveClock_rise s hclk, driveClock_rise (s.withHostSide cs r rs) hclk]
      rfl
    · rw [driveClock_noRise v s h, driveClock_noRise v (s.withHostSide cs r rs) h]
      rfl

theorem ignoresHostSide_driveLatch (v : Level) : IgnoresHostSide (driveLatch v) := by
  intro s
  by_cases h : s.lat = false ∧ v = true
  · obtain ⟨hlat, rfl⟩ := h
    refine ⟨[.latched s.chain], by rw [driveLatch_rise s hlat], fun cs r rs => ?_⟩
    rw [driveLatch_rise s hlat, driveLatch_rise (s.withHostSide cs r rs) hlat]
    rfl
  · refine ⟨[], by rw [driveLatch_noRise v s h, List.append_nil], fun cs r rs => ?_⟩
    rw [driveLatch_noRise v s h, driveLatch_noRise v (s.withHostSide cs r rs) h, List.append_nil]
    rfl

theorem ignoresHostSide_pushByte (b : Byte) : IgnoresHostSide (pushByte b) := by
  refine .of_silent (fun s => by rw [pushByte_eq]) fun s cs r rs => ?_
  rw [pushByte_eq, pushByte_eq]
  rfl

theorem ignoresHostSide_latchPulse : IgnoresHostSide latchPulse := by
  refine fun s => ⟨[.latched s.chain], by rw [latchPulse_eq], fun cs r rs => ?_⟩
  rw [latchPulse_eq, latchPulse_eq]
  rfl

theorem ignoresHostSide_refreshDigit (j : Slot) : IgnoresHostSide (refreshDigit j) := by
  refine fun s => ⟨[.latched (readSlot s j ++ sel s.params j)], by rw [refreshDigit_eq], fun cs r rs => ?_⟩
  rw [refreshDigit_eq, refreshDigit_eq]
  rfl

theorem ignoresHostSide_refreshCycle : IgnoresHostSide refreshCycle := by
  refine fun s => ⟨_, by rw [refreshCycle_eq], fun cs r rs => ?_⟩
  rw [refreshCycle_eq, refreshCycle_eq]
  rfl

theorem ignoresHostSide_recordIllegal (f : CommandFault) (w : Word) : IgnoresHostSide (recordIllegal f w) := by
  refine fun s => ⟨[.fault f w], by rw [recordIllegal_eq], fun cs r rs => ?_⟩
  rw [recordIllegal_eq, recordIllegal_eq]
  rfl

/-- R200, R11: every operation completes, and reads no response and no waiting command. -/
theorem exec_ignoresHostSide (i : Instr) : ∃ f, (∀ s, exec i s = .next (f s)) ∧ IgnoresHostSide f := by
  cases i with
  | enc c => exact ⟨_, fun _ => rfl, fun s => ⟨[.code (encodeChar s.params c)], rfl, fun _ _ _ => rfl⟩⟩
  | fmt => exact ⟨_, fun _ => rfl, .of_silent (fun _ => rfl) fun _ _ _ _ => rfl⟩
  | setd v => exact ⟨driveData v, fun _ => rfl, .of_silent (fun _ => rfl) fun _ _ _ _ => rfl⟩
  | setc v => exact ⟨driveClock v, fun _ => rfl, ignoresHostSide_driveClock v⟩
  | setl v => exact ⟨driveLatch v, fun _ => rfl, ignoresHostSide_driveLatch v⟩
  | push b => exact ⟨pushByte b, fun _ => rfl, ignoresHostSide_pushByte b⟩
  | latch => exact ⟨latchPulse, fun _ => rfl, ignoresHostSide_latchPulse⟩
  | rdig j => exact ⟨refreshDigit j, fun _ => rfl, ignoresHostSide_refreshDigit j⟩
  | rcyc => exact ⟨refreshCycle, fun _ => rfl, ignoresHostSide_refreshCycle⟩
  | ctrl smp f => exact ⟨_, fun _ => rfl, fun s => ⟨[.control _ _], rfl, fun _ _ _ => rfl⟩⟩
  | conv smp => exact ⟨_, fun _ => rfl, fun s => ⟨[.pressure (pressure s.params smp)], rfl, fun _ _ _ => rfl⟩⟩

/-- R200, R201: the same of every command, legal or not. -/
theorem perform_ignoresHostSide (w : Word) : ∃ f, (∀ s, perform w s = .next (f s)) ∧ IgnoresHostSide f := by
  cases hw : decode w with
  | ok i => simpa only [perform_ok w i _ hw] using exec_ignoresHostSide i
  | error e => exact ⟨recordIllegal e w, fun s => perform_error w e s hw, ignoresHostSide_recordIllegal e w⟩

@[simp] theorem issue_nil (s : State) : issue [] s = s := by
  simp [issue]

/-- R6: the oldest command is performed the same whatever waits behind it, and leaves that waiting. -/
theorem step_issue_cons (c : Command) (s : State) (hs : s.pending = []) :
    ∃ t, t.pending = [] ∧ ∀ rest, step (issue (c :: rest) s) = .next (issue rest t) := by
  obtain ⟨f, hf, hfree⟩ := perform_ignoresHostSide c.word
  obtain ⟨es, -, hes⟩ := hfree (beginCommand c [] s)
  refine ⟨finishCommand ((f (beginCommand c [] s)).withHostSide [] es s.responses), rfl, fun rest => ?_⟩
  have hbegin : beginCommand c rest (issue (c :: rest) s) = (beginCommand c [] s).withHostSide rest [] s.responses := rfl
  rw [step_cons _ c rest (by simp [hs]), hbegin, hf, hes]
  rfl

theorem runCommands_cons {c : Command} {s t : State} (h : step (issue [c] s) = .next t) (rest : List Command) :
    runCommands (c :: rest) s = runCommands rest t := by
  simp [runCommands, h]

theorem run_succ {s t : State} (h : step s = .next t) (k : Nat) :
    Host.Core.run core (k + 1) s = Host.Core.run core k t := by
  simp [Host.Core.run, core, h]

/-- Settles O41: the operation's state transformer ignores the host's side, here with the waiting commands kept. -/
theorem responsesAreNeverRead : Obligations.ResponsesAreNeverRead := by
  intro i s r rs
  obtain ⟨f, hf, hfree⟩ := exec_ignoresHostSide i
  obtain ⟨es, hresp, hes⟩ := hfree s
  have hsame : f s = (f s).withHostSide s.pending (s.response ++ es) s.responses := hes s.pending s.response s.responses
  refine ⟨f s, es, hf s, hresp, ?_⟩
  have hother : f { s with response := r, responses := rs } = (f s).withHostSide s.pending (r ++ es) rs := hes s.pending r rs
  rw [hf, hother, hsame]
  rfl

/-- Settles O50, by induction on the commands: the first is performed the same with or without the others behind it. -/
theorem commandsRunInIssueOrder : Obligations.CommandsRunInIssueOrder := by
  intro cs
  induction cs with
  | nil => exact fun s _ => congrArg Host.Outcome.next (issue_nil s)
  | cons c rest ih =>
    intro s hs
    obtain ⟨t, ht, hstep⟩ := step_issue_cons c s hs
    have halone : step (issue [c] s) = .next t := by rw [hstep, issue_nil]
    rw [runCommands_cons halone, ← ih t ht]
    exact run_succ (hstep rest) rest.length

end Sys2Proof.Machine
end

section
/-! PROOFS. The state of R20: which of its elements an operation writes, what a step therefore keeps (R23, R30), what power-on
gives (R34), and what the display shows of the buffer (R24, R29). -/
namespace Sys2Proof.Machine

/-- R20's written-by column, read by the operation: `t` is `s` but for the elements that the operation may write. -/
def WritesOnly : Instr → State → State → Prop
  | .enc _, s, t => ∃ e, t = { s with response := s.response ++ [e] }
  | .fmt, s, t => ∃ b, t = { s with buf := b }
  | .setd _, s, t => ∃ d, t = { s with data := d }
  | .setc _, s, t => ∃ c k, t = { s with chain := c, clk := k }
  | .setl _, s, t => ∃ q l es, t = { s with q := q, lat := l, response := s.response ++ es }
  | .push _, s, t => ∃ c d k, t = { s with chain := c, data := d, clk := k }
  | .latch, s, t => ∃ q l es, t = { s with q := q, lat := l, response := s.response ++ es }
  | .rdig _, s, t => ∃ c q d k l es,
      t = { s with chain := c, q := q, data := d, clk := k, lat := l, response := s.response ++ es }
  | .rcyc, s, t => ∃ c q d k l es,
      t = { s with chain := c, q := q, data := d, clk := k, lat := l, response := s.response ++ es }
  | .ctrl _ _, s, t => ∃ p e, t = { s with pump := p, response := s.response ++ [e] }
  | .conv _, s, t => ∃ e, t = { s with response := s.response ++ [e] }

theorem driveClock_writesOnly (v : Level) (s : State) : WritesOnly (.setc v) s (driveClock v s) := by
  by_cases h : s.clk = false ∧ v = true
  · obtain ⟨hclk, rfl⟩ := h
    exact ⟨_, _, driveClock_rise s hclk⟩
  · exact ⟨_, _, driveClock_noRise v s h⟩

theorem driveLatch_writesOnly (v : Level) (s : State) : WritesOnly (.setl v) s (driveLatch v s) := by
  by_cases h : s.lat = false ∧ v = true
  · obtain ⟨hlat, rfl⟩ := h
    exact ⟨_, _, _, driveLatch_rise s hlat⟩
  · exact ⟨_, _, [], by rw [driveLatch_noRise v s h, List.append_nil]⟩

/-- R200, R20: every operation completes, and writes only the elements of its row. -/
theorem exec_completes_writesOnly (i : Instr) (s : State) : ∃ t, exec i s = .next t ∧ WritesOnly i s t := by
  cases i with
  | enc c => exact ⟨_, rfl, _, rfl⟩
  | fmt => exact ⟨_, rfl, _, rfl⟩
  | setd v => exact ⟨_, rfl, _, rfl⟩
  | setc v => exact ⟨_, rfl, driveClock_writesOnly v s⟩
  | setl v => exact ⟨_, rfl, driveLatch_writesOnly v s⟩
  | push b => exact ⟨_, rfl, _, _, _, pushByte_eq b s⟩
  | latch => exact ⟨_, rfl, _, _, _, latchPulse_eq s⟩
  | rdig j => exact ⟨_, rfl, _, _, _, _, _, _, refreshDigit_eq j s⟩
  | rcyc => exact ⟨_, rfl, _, _, _, _, _, _, refreshCycle_eq s⟩
  | ctrl smp f => exact ⟨_, rfl, _, _, rfl⟩
  | conv smp => exact ⟨_, rfl, _, rfl⟩

theorem exec_writesOnly (i : Instr) (s t : State) (h : exec i s = .next t) : WritesOnly i s t := by
  obtain ⟨u, hu, hrow⟩ := exec_completes_writesOnly i s
  obtain rfl : t = u := Host.Outcome.next.inj (h.symm.trans hu)
  exact hrow

/-- Settles O39, operation by operation from the row of each: what the row does not list is as it was. -/
theorem eachElementHasOnlyItsWriters : Obligations.EachElementHasOnlyItsWriters := by
  intro i s t h
  have hrow := exec_writesOnly i s t h
  cases i with
  | enc c => obtain ⟨e, rfl⟩ := hrow; simp
  | fmt => obtain ⟨b, rfl⟩ := hrow; simp
  | setd v => obtain ⟨d, rfl⟩ := hrow; simp
  | setc v => obtain ⟨c, k, rfl⟩ := hrow; simp
  | setl v => obtain ⟨q, l, es, rfl⟩ := hrow; simp
  | push b => obtain ⟨c, d, k, rfl⟩ := hrow; simp
  | latch => obtain ⟨q, l, es, rfl⟩ := hrow; simp
  | rdig j => obtain ⟨c, q, d, k, l, es, rfl⟩ := hrow; simp
  | rcyc => obtain ⟨c, q, d, k, l, es, rfl⟩ := hrow; simp
  | ctrl smp f => obtain ⟨p, e, rfl⟩ := hrow; simp
  | conv smp => obtain ⟨e, rfl⟩ := hrow; simp

theorem exec_params (i : Instr) (s t : State) (h : exec i s = .next t) : t.params = s.params :=
  (eachElementHasOnlyItsWriters i s t h).1

theorem exec_fault (i : Instr) (s t : State) (h : exec i s = .next t) : t.fault = s.fault :=
  (eachElementHasOnlyItsWriters i s t h).2.1

theorem exec_buf_of_ne_fmt (i : Instr) (s t : State) (hi : i ≠ .fmt) (h : exec i s = .next t) : t.buf = s.buf := by
  obtain ⟨-, -, -, -, -, -, hbuf, -⟩ := eachElementHasOnlyItsWriters i s t h
  exact not_not.mp fun hne => hi (hbuf hne)

/-! ### The buffer (R23) -/

theorem slot_cases (j : Slot) : j = 0 ∨ j = 1 ∨ j = 2 ∨ j = 3 := by
  revert j; decide

/-- R103: ENC's code is always one of the table. -/
theorem encodeChar_glyphCode (p : Params) (c : Byte) : GlyphCode p (encodeChar p c) := by
  unfold encodeChar
  split
  · next h => exact .inl ⟨⟨c.toNat - 0x30, by omega⟩, rfl⟩
  · split
    · exact .inr (.inr (.inl rfl))
    · split
      · exact .inr (.inr (.inr rfl))
      · exact .inr (.inl rfl)

theorem segBlank_glyphCode (p : Params) : GlyphCode p p.segBlank := .inr (.inl rfl)

/-- R110, R23: whatever is left of the source, the slot gets a glyph code or a combined code. -/
theorem slotCode_bufferCode (p : Params) (r : List Byte) : BufferCode p (slotCode p r) := by
  cases r with
  | nil => exact .inl (segBlank_glyphCode p)
  | cons c rest =>
    by_cases hc : c = 0x2E#8
    · subst hc
      cases rest with
      | nil => exact .inr ⟨_, segBlank_glyphCode p, rfl⟩
      | cons d rest => exact .inr ⟨_, encodeChar_glyphCode p d, rfl⟩
    · rw [slotCode_glyph p c rest hc]
      exact .inl (encodeChar_glyphCode p c)

theorem formatSlots_bufferCode (p : Params) (r : List Byte) (j : Slot) :
    BufferCode p (formatSlots p r)[j.toNat] := by
  obtain rfl | rfl | rfl | rfl := slot_cases j <;> exact slotCode_bufferCode p _

/-- R23: validity is a fact about the parameters and the buffer alone. -/
theorem BufferValid.of_eq {s t : State} (h : BufferValid s) (hparams : t.params = s.params) (hbuf : t.buf = s.buf) :
    BufferValid t := by
  intro j
  have hslot : readSlot t j = readSlot s j := by rw [readSlot, readSlot, hbuf]
  rw [hparams, hslot]
  exact h j

/-- R23: FMT fills the buffer with valid codes, and no other operation writes it. -/
theorem exec_bufferValid (i : Instr) (s t : State) (hs : BufferValid s) (h : exec i s = .next t) : BufferValid t := by
  by_cases hi : i = .fmt
  · subst hi
    cases h
    exact formatSlots_bufferCode s.params (scanSource s.strPort)
  · exact hs.of_eq (exec_params i s t h) (exec_buf_of_ne_fmt i s t hi h)

/-- Settles O53, by what a step can do: only a performed command reaches the buffer. -/
theorem bufferStaysValid : Obligations.BufferStaysValid := by
  intro s t hs h
  rcases step_cases s t h with ⟨-, rfl⟩ | ⟨c, rest, -, ⟨i, u, -, hu, rfl⟩ | ⟨f, -, rfl⟩⟩
  · exact hs
  · exact exec_bufferValid i (beginCommand c rest s) u hs hu
  · rw [recordIllegal_eq]
    exact hs.of_eq rfl rfl

/-! ### The fault field and the boundary (R30, R11) -/

/-- Settles O47: an operation leaves both fields alone, and the record of an illegal word keeps the first fault. -/
theorem faultIsSticky : Obligations.FaultIsSticky := by
  intro s t h
  rcases step_cases s t h with ⟨-, rfl⟩ | ⟨c, rest, hp, ⟨i, u, -, hu, rfl⟩ | ⟨f, hd, rfl⟩⟩
  · exact ⟨fun _ => rfl, rfl, fun _ => rfl⟩
  · have hfault : u.fault = s.fault := exec_fault i (beginCommand c rest s) u hu
    exact ⟨fun _ => hfault, exec_params i (beginCommand c rest s) u hu, fun _ => hfault⟩
  · rw [recordIllegal_eq]
    refine ⟨fun hf => ?_, rfl, fun hlegal => ?_⟩
    · obtain ⟨g, hg⟩ := Option.ne_none_iff_exists'.mp hf
      simp [hg]
    · have : legalWord c.word = true := hlegal c (by simp [hp])
      simp [legalWord, hd] at this

/-- Settles O55: a waiting step keeps the boundary, and a finished command ends at one. -/
theorem stepsEndAtABoundary : Obligations.StepsEndAtABoundary := by
  refine ⟨fun s t hs h => ?_, ?_⟩
  · rcases step_cases s t h with ⟨-, rfl⟩ | ⟨c, rest, -, ⟨i, u, -, -, rfl⟩ | ⟨f, -, rfl⟩⟩
    · exact hs
    · exact ⟨rfl, rfl⟩
    · exact ⟨rfl, rfl⟩
  · rintro p s ⟨d, rfl⟩
    exact ⟨rfl, rfl⟩

/-- Settles O43: PUMP and the record of CTRL are functions of the parameters, the old PUMP and the operands. -/
theorem controllerIgnoresTheDisplay : Obligations.ControllerIgnoresTheDisplay := by
  intro smp f s s' hparams hpump
  exact ⟨_, _, _, rfl, rfl, by simp [hparams, hpump], rfl, by simp [hparams, hpump]⟩

/-! ### Power-on (R34) -/

@[simp] theorem readSlot_powerOn (p : Params) (d : ResetDraw) (j : Slot) : readSlot (State.powerOn p d) j = 0xFF := by
  obtain rfl | rfl | rfl | rfl := slot_cases j <;> rfl

/-- Settles O54: the reset buffer's 0xFF is the blank code. -/
theorem resetBufferIsValid : Obligations.ResetBufferIsValid := by
  rintro p s hblank ⟨d, rfl⟩ j
  rw [readSlot_powerOn, ← hblank]
  exact .inl (segBlank_glyphCode p)

/-- Settles O56: the elements that R34 fixes do not depend on the draw. -/
theorem resetValues : Obligations.ResetValues := by
  refine ⟨?_, ResetDraw.zeros, rfl⟩
  rintro p s ⟨d, rfl⟩
  exact ⟨readSlot_powerOn p d, rfl, rfl, rfl⟩

/-! ### What the display shows of the buffer (R24, R29) -/

/-- R150: RDIG latches the slot's code over the select byte. -/
theorem refreshDigit_q (j : Slot) (s : State) : (refreshDigit j s).q = readSlot s j ++ sel s.params j := by
  rw [refreshDigit_eq]

/-- Settles O57: the outputs are part of the draw, and RDIG overwrites all 16 of them. -/
theorem outputsBeforeTheFirstLatch : Obligations.OutputsBeforeTheFirstLatch := by
  refine ⟨fun p q => ⟨_, ⟨{ ResetDraw.zeros with q := q }, rfl⟩, rfl⟩, ?_⟩
  rintro p s j ⟨d, rfl⟩
  refine ⟨_, rfl, fun hsel => ⟨j, fun k => ?_⟩, ?_⟩
  · rw [refreshDigit_q]
    exact digitEnabled_append_sel p hsel _ j k
  · rw [refreshDigit_q, segOut_append, readSlot_powerOn]

/-- Settles O26: of the two latched bytes the select byte says which digit, the slot's code which segments. -/
theorem rdigLightsTheSlotsSegments : Obligations.RdigLightsTheSlotsSegments := by
  intro j s hsel
  refine ⟨_, rfl, fun d k => ?_⟩
  rw [segmentLit, refreshDigit_q, digitEnabled_append_sel _ hsel, segOut_append]
  simp [readSlot]

/-- R111: with no `0x00` in it the whole string is scanned. -/
theorem scanSource_eq_reverse (str : List Byte) (h : ∀ x ∈ str, x ≠ 0x00#8) : scanSource str = str.reverse := by
  rw [scanSource, effectiveString, List.takeWhile_eq_self_iff.mpr (by simpa using h)]

/-- R110: four plain characters fill the four slots, one each. -/
theorem formatSlots_glyphs (p : Params) (a b c d : Byte) (h : ∀ x ∈ [a, b, c, d], x ≠ 0x2E#8) :
    formatSlots p [a, b, c, d] = #v[encodeChar p a, encodeChar p b, encodeChar p c, encodeChar p d] := by
  simp only [List.forall_mem_cons] at h
  obtain ⟨ha, hb, hc, hd, -⟩ := h
  simp only [formatSlots, slotRest_glyph _ _ ha, slotRest_glyph _ _ hb, slotRest_glyph _ _ hc, slotCode_glyph _ _ _ ha,
    slotCode_glyph _ _ _ hb, slotCode_glyph _ _ _ hc, slotCode_glyph _ _ _ hd]

/-- Settles O15: the scan reverses the string, and reading slot 3 first reverses it back. -/
theorem fourCharactersReadLeftToRight : Obligations.FourCharactersReadLeftToRight := by
  intro s a b c d hstr hplain
  have hscan : scanSource s.strPort = [d, c, b, a] := by
    rw [hstr, scanSource_eq_reverse _ fun x hx => (hplain x hx).1]
    rfl
  have hslots := formatSlots_glyphs s.params d c b a fun x hx => (hplain x (List.mem_reverse.mp hx)).2
  refine ⟨_, rfl, ?_⟩
  rw [hscan, hslots]
  rfl

end Sys2Proof.Machine
end

section
/-! PROOFS. Operations done again: the two pushes that replace the chain (R42), and what a second time leaves as the first
left it (R46). -/
namespace Sys2Proof.Machine

/-- R42: of the two bytes the first ends in the high half. -/
theorem pushByte_pushByte_chain (a b : Byte) (s : State) : (pushByte b (pushByte a s)).chain = a ++ b := by
  simp only [pushByte_eq, extract_append_append]

/-- Settles O21: the two bytes are the whole chain, and its halves are read as the latched halves are (R29). -/
theorem twoPushesReplaceTheChain : Obligations.TwoPushesReplaceTheChain := by
  intro a b s
  refine ⟨pushByte b (pushByte a s), rfl, ?_⟩
  rw [pushByte_pushByte_chain]
  exact ⟨segOut_append a b, digSel_append a b⟩

/-! ### A line driven again (R46) -/

@[simp] theorem driveClock_clk (v : Level) (s : State) : (driveClock v s).clk = v := by
  by_cases h : s.clk = false ∧ v = true <;> simp [driveClock, h]

@[simp] theorem driveLatch_lat (v : Level) (s : State) : (driveLatch v s).lat = v := by
  by_cases h : s.lat = false ∧ v = true <;> simp [driveLatch, h, State.emit]

/-- A line driven to the level it holds has no rising edge. -/
theorem driveClock_of_clk_eq {v : Level} {s : State} (h : s.clk = v) : driveClock v s = s := by
  subst h
  exact driveClock_noRise s.clk s (by simp)

theorem driveLatch_of_lat_eq {v : Level} {s : State} (h : s.lat = v) : driveLatch v s = s := by
  subst h
  exact driveLatch_noRise s.lat s (by simp)

theorem driveClock_driveClock (v : Level) (s : State) : driveClock v (driveClock v s) = driveClock v s :=
  driveClock_of_clk_eq (driveClock_clk v s)

theorem driveLatch_driveLatch (v : Level) (s : State) : driveLatch v (driveLatch v s) = driveLatch v s :=
  driveLatch_of_lat_eq (driveLatch_lat v s)

/-! ### A response given again (R46) -/

/-- `f` done a second time adds the events of the first time once more, and changes nothing else. -/
def RepeatsItsResponse (f : State → State) : Prop :=
  ∀ s : State, ∃ es : List Event, (f s).response = s.response ++ es ∧
    f (f s) = { f s with response := (f s).response ++ es }

/-- A latch pulse leaves the chain it copied. -/
theorem repeatsItsResponse_latchPulse : RepeatsItsResponse latchPulse := by
  refine fun s => ⟨[.latched s.chain], by rw [latchPulse_eq], ?_⟩
  rw [latchPulse_eq (latchPulse s), latchPulse_eq s]

/-- A refresh leaves the buffer and the parameters it read. -/
theorem repeatsItsResponse_refreshDigit (j : Slot) : RepeatsItsResponse (refreshDigit j) := by
  refine fun s => ⟨[.latched (readSlot s j ++ sel s.params j)], by rw [refreshDigit_eq], ?_⟩
  rw [refreshDigit_eq j (refreshDigit j s), refreshDigit_eq j s]
  rfl

theorem repeatsItsResponse_refreshCycle : RepeatsItsResponse refreshCycle := by
  refine fun s => ⟨_, by rw [refreshCycle_eq], ?_⟩
  rw [refreshCycle_eq (refreshCycle s), refreshCycle_eq s]
  rfl

/-- A response is no element of R20's state. -/
theorem sameBlock_with_response (t : State) (r : List Event) : SameBlock { t with response := r } t :=
  ⟨rfl, rfl, rfl, rfl, rfl, rfl, rfl, rfl⟩

theorem SameBlock.refl (t : State) : SameBlock t t := sameBlock_with_response t t.response

theorem RepeatsItsResponse.exec_again {f : State → State} (hf : RepeatsItsResponse f) {i : Instr}
    (hi : ∀ s, exec i s = .next (f s)) {s t : State} (h : exec i s = .next t) :
    ∃ es, t.response = s.response ++ es ∧ exec i t = .next { t with response := t.response ++ es } := by
  obtain rfl : f s = t := Host.Outcome.next.inj ((hi s).symm.trans h)
  obtain ⟨es, hes, hagain⟩ := hf s
  exact ⟨es, hes, by rw [hi, hagain]⟩

/-- The three operations that always latch add the same events once more, and change nothing else. -/
theorem exec_latching_again {i : Instr} {s t : State} (hi : i = .latch ∨ (∃ j, i = .rdig j) ∨ i = .rcyc)
    (h : exec i s = .next t) :
    ∃ es, t.response = s.response ++ es ∧ exec i t = .next { t with response := t.response ++ es } := by
  rcases hi with rfl | ⟨j, rfl⟩ | rfl
  · exact repeatsItsResponse_latchPulse.exec_again (fun _ => rfl) h
  · exact (repeatsItsResponse_refreshDigit j).exec_again (fun _ => rfl) h
  · exact repeatsItsResponse_refreshCycle.exec_again (fun _ => rfl) h

theorem exec_latching_again_sameBlock {i : Instr} {s t : State} (hi : i = .latch ∨ (∃ j, i = .rdig j) ∨ i = .rcyc)
    (h : exec i s = .next t) : ∃ u, exec i t = .next u ∧ SameBlock u t := by
  obtain ⟨es, -, hagain⟩ := exec_latching_again hi h
  exact ⟨_, hagain, sameBlock_with_response _ _⟩

/-! ### A controller step done again (R46) -/

/-- R183: the same conditions decide the pump the same way, and where no rule fires it stays. -/
theorem nextPump_nextPump (c : Conditions) (before : PumpState) :
    nextPump c (nextPump c before) = nextPump c before := by
  by_cases hoff : offFire c = true
  · simp [nextPump, hoff]
  · by_cases hon : onFire c = true <;> simp [nextPump, hoff, hon]

/-- R186: which levels are written is decided by the conditions alone; the line's level only matters to the settles (R187). -/
theorem relayWrites_levels (p : Params) (c : Conditions) (before : PumpState) :
    (relayWrites p c before).2.map RelayWrite.level =
      (if onFire c then [PumpState.on] else []) ++ (if offFire c then [PumpState.off] else []) := by
  by_cases hon : onFire c = true <;> by_cases hoff : offFire c = true <;> simp [relayWrites, relayWrite, hon, hoff]

/-- A controller step done again keeps `PUMP` and adds its record once more, with the settles of the line's new level. -/
theorem exec_ctrl_again {smp : Sample} {f : Level} {s t : State} (h : exec (.ctrl smp f) s = .next t) :
    exec (.ctrl smp f) t =
      .next (t.emit (.control t.pump (relayWrites t.params (conditions t.params smp f) t.pump).2)) := by
  cases h
  simp [exec, execCtrl, State.setPump, State.emit, nextPump_nextPump]

/-- R46: done again, every operation but PUSH leaves the block as it found it. -/
theorem exec_again_sameBlock (i : Instr) (s t : State) (hi : ∀ b, i ≠ .push b) (h : exec i s = .next t) :
    ∃ u, exec i t = .next u ∧ SameBlock u t := by
  cases i with
  | enc c => cases h; exact ⟨_, rfl, sameBlock_with_response _ _⟩
  | fmt => cases h; exact ⟨_, rfl, .refl _⟩
  | setd v => cases h; exact ⟨_, rfl, .refl _⟩
  | setc v => cases h; exact ⟨_, congrArg Host.Outcome.next (driveClock_driveClock v s), .refl _⟩
  | setl v => cases h; exact ⟨_, congrArg Host.Outcome.next (driveLatch_driveLatch v s), .refl _⟩
  | push b => exact absurd rfl (hi b)
  | latch => exact exec_latching_again_sameBlock (.inl rfl) h
  | rdig j => exact exec_latching_again_sameBlock (.inr (.inl ⟨j, rfl⟩)) h
  | rcyc => exact exec_latching_again_sameBlock (.inr (.inr rfl)) h
  | ctrl smp f => exact ⟨_, exec_ctrl_again h, sameBlock_with_response _ _⟩
  | conv smp => cases h; exact ⟨_, rfl, sameBlock_with_response _ _⟩

/-- R46: LATCH, RDIG and RCYC answer the same again, whatever the first answer was. -/
theorem exec_again_response (i : Instr) (s t : State) (es : List Event)
    (hi : i = .latch ∨ (∃ j, i = .rdig j) ∨ i = .rcyc) (h : exec i s = .next t) (hes : t.response = s.response ++ es) :
    ∃ u, exec i t = .next u ∧ u.response = t.response ++ es := by
  obtain ⟨es', hes', hagain⟩ := exec_latching_again hi h
  obtain rfl : es' = es := List.append_cancel_left (hes'.symm.trans hes)
  exact ⟨_, hagain, rfl⟩

/-- R46: CTRL writes the relay again, the same levels in the same order; a settle may differ (R187). -/
theorem exec_ctrl_again_levels (smp : Sample) (f : Level) (s t : State) (ws : List RelayWrite)
    (h : exec (.ctrl smp f) s = .next t) (hws : t.response = s.response ++ [Event.control t.pump ws]) :
    ∃ u ws', exec (.ctrl smp f) t = .next u ∧ u.response = t.response ++ [Event.control t.pump ws'] ∧
      ws'.map RelayWrite.level = ws.map RelayWrite.level := by
  refine ⟨_, _, exec_ctrl_again h, rfl, ?_⟩
  cases h
  obtain rfl : (relayWrites s.params (conditions s.params smp f) s.pump).2 = ws := by
    simpa [State.emit] using hws
  exact (relayWrites_levels _ _ _).trans (relayWrites_levels _ _ _).symm

/-- Settles O40, clause by clause; for PUSH, `0x01` pushed twice from reset moves the first byte up. -/
theorem repeatingAnOperation : Obligations.RepeatingAnOperation := by
  refine ⟨fun s => ⟨rfl, ?_, ?_⟩, exec_again_sameBlock, exec_again_response, exec_ctrl_again_levels, ?_⟩
  · exact congrArg Host.Outcome.next (driveClock_of_clk_eq rfl)
  · exact congrArg Host.Outcome.next (driveLatch_of_lat_eq rfl)
  · refine ⟨0x01, State.reset, _, _, rfl, rfl, ?_⟩
    rw [pushByte_pushByte_chain, pushByte_eq]
    decide

end Sys2Proof.Machine
end

section
/-! PROOFS. The command word (30_encoding.md): what a word that meets a row's mask and match decodes to and is, and so decoding
and encoding as inverses (R62, R65, R66), the assembler's words (R69), and how many words each outcome has (R67). -/
namespace Sys2Proof

/-! ### Decoding a word of a row (R65, R66) -/

/-- R65: every mask covers the operation code, and every match has its own row's code there. -/
theorem opOf_opcode_of_matches {w : Word} {o : Op} (h : w &&& o.mask = o.matchWord) :
    opOf (w.extractLsb' 12 4) = some o := by
  have hmask : o.mask.extractLsb' 12 4 = BitVec.allOnes 4 := by cases o <;> rfl
  have hcode : w.extractLsb' 12 4 = o.matchWord.extractLsb' 12 4 := by
    rw [← h, BitVec.extractLsb'_and, hmask, BitVec.and_allOnes]
  rw [hcode]
  cases o <;> rfl

/-- R66: an unassigned operation code. -/
theorem decode_of_opOf_none {w : Word} (h : opOf (w.extractLsb' 12 4) = none) : decode w = .error .illegalOpcode := by
  simp only [decode, h]

/-- R66: an assigned operation code; the reserved bits decide. -/
theorem decode_of_opOf_some {w : Word} {o : Op} (h : opOf (w.extractLsb' 12 4) = some o) :
    decode w = if w &&& o.mask = o.matchWord then .ok (o.withFields w) else .error .reservedField := by
  simp only [decode, h]

theorem decode_of_matches {w : Word} {o : Op} (h : w &&& o.mask = o.matchWord) : decode w = .ok (o.withFields w) := by
  rw [decode_of_opOf_some (opOf_opcode_of_matches h), if_pos h]

/-- R65, R66: the only way a word is legal. -/
theorem exists_matches_of_decode_ok {w : Word} {i : Instr} (h : decode w = .ok i) :
    ∃ o : Op, w &&& o.mask = o.matchWord ∧ i = o.withFields w := by
  cases hop : opOf (w.extractLsb' 12 4) with
  | none => rw [decode_of_opOf_none hop] at h; cases h
  | some o =>
    rw [decode_of_opOf_some hop] at h
    by_cases hm : w &&& o.mask = o.matchWord
    · rw [if_pos hm] at h
      exact ⟨o, hm, (Except.ok.inj h).symm⟩
    · rw [if_neg hm] at h; cases h

@[simp] theorem op_withFields (o : Op) (w : Word) : (o.withFields w).op = o := by
  cases o <;> rfl

theorem matches_inj {w : Word} {o o' : Op} (h : w &&& o.mask = o.matchWord) (h' : w &&& o'.mask = o'.matchWord) :
    o = o' :=
  Option.some.inj ((opOf_opcode_of_matches h).symm.trans (opOf_opcode_of_matches h'))

/-! ### The encoder (R62) -/

/-- R65, for every instruction: its word lies in its own row. -/
theorem encode_matches (i : Instr) : encode i &&& i.op.mask = i.op.matchWord := by
  cases i with
  | enc c => exact Laws.Row.enc c
  | fmt => exact Laws.Row.fmt
  | setd v => exact Laws.Row.setd v
  | setc v => exact Laws.Row.setc v
  | setl v => exact Laws.Row.setl v
  | push b => exact Laws.Row.push b
  | latch => exact Laws.Row.latch
  | rdig j => exact Laws.Row.rdig j
  | rcyc => exact Laws.Row.rcyc
  | ctrl smp f => exact Laws.Row.ctrl smp f
  | conv smp => exact Laws.Row.conv smp

/-- R63: a level appended last is the last bit. -/
theorem getLsbD_append_ofBool {n : Nat} (hi : BitVec n) (v : Level) : (hi ++ BitVec.ofBool v).getLsbD 0 = v := by
  rw [BitVec.getLsbD_append]
  simp

/-- R63: the flow level stands above the reserved bit and the sample. -/
theorem getLsbD_append_flow (code : BitVec 4) (f : Level) (smp : Sample) :
    (code ++ BitVec.ofBool f ++ 0#1 ++ smp).getLsbD 11 = f := by
  simp only [BitVec.getLsbD_append]
  simp

/-- R62, R63: every operand stands whole in its field. -/
theorem withFields_encode (i : Instr) : i.op.withFields (encode i) = i := by
  cases i with
  | enc c => exact congrArg Instr.enc BitVec.extractLsb'_append_eq_right
  | setd v => exact congrArg Instr.setd (getLsbD_append_ofBool _ v)
  | setc v => exact congrArg Instr.setc (getLsbD_append_ofBool _ v)
  | setl v => exact congrArg Instr.setl (getLsbD_append_ofBool _ v)
  | push b => exact congrArg Instr.push BitVec.extractLsb'_append_eq_right
  | rdig j => exact congrArg Instr.rdig BitVec.extractLsb'_append_eq_right
  | ctrl smp f => exact congrArg₂ Instr.ctrl BitVec.extractLsb'_append_eq_right (getLsbD_append_flow _ f smp)
  | conv smp => exact congrArg Instr.conv BitVec.extractLsb'_append_eq_right
  | fmt | latch | rcyc => rfl

theorem decode_encode (i : Instr) : decode (encode i) = .ok i := by
  rw [decode_of_matches (encode_matches i), withFields_encode]

/-- Settles O1: an encoding lies in its instruction's row, and the row's fields hold the operands. -/
theorem decodeOfEncodeIsTheInstruction : Obligations.DecodeOfEncodeIsTheInstruction :=
  fun i _ => decode_encode i

/-! ### The words as OR of the match and the operands (R69) -/

/-- Appending a field is shifting the others up and ORing it in. -/
theorem append_eq_shiftLeft_or {m n : Nat} (hi : BitVec m) (lo : BitVec n) :
    hi ++ lo = hi.setWidth (m + n) <<< n ||| lo.setWidth (m + n) := by
  rw [← BitVec.setWidth_append_eq_shiftLeft_setWidth_or, BitVec.setWidth_eq]

theorem asmWord_eq_encode (i : Instr) : Machine.asmWord i = encode i := by
  cases i with
  | enc c => exact (append_eq_shiftLeft_or (0x1#4 ++ 0#4) c).symm
  | setd v => exact (append_eq_shiftLeft_or (0x3#4 ++ 0#11) (BitVec.ofBool v)).symm
  | setc v => exact (append_eq_shiftLeft_or (0x4#4 ++ 0#11) (BitVec.ofBool v)).symm
  | setl v => exact (append_eq_shiftLeft_or (0x5#4 ++ 0#11) (BitVec.ofBool v)).symm
  | push b => exact (append_eq_shiftLeft_or (0x6#4 ++ 0#4) b).symm
  | rdig j => exact (append_eq_shiftLeft_or (0x8#4 ++ 0#10) j).symm
  | ctrl smp f =>
    cases f with
    | false => exact (append_eq_shiftLeft_or (0xA#4 ++ 0#1 ++ 0#1) smp).symm
    | true => exact (append_eq_shiftLeft_or (0xA#4 ++ 1#1 ++ 0#1) smp).symm
  | conv smp => exact (append_eq_shiftLeft_or (0xB#4 ++ 0#2) smp).symm
  | fmt | latch | rcyc => rfl

/-- Settles O7: a field of a word ORed in is the field appended. -/
theorem assemblerWordsAreTheEncodings : Obligations.AssemblerWordsAreTheEncodings := asmWord_eq_encode

/-- The low bits of a word, as a field of a word of zeros. -/
theorem setWidth_lowField (w : Word) (n : Nat) :
    (w.extractLsb' 0 n).setWidth 16 = w &&& (BitVec.allOnes n).setWidth 16 := by
  apply BitVec.eq_of_getLsbD_eq
  intro k hk
  by_cases hn : k < n <;> simp [hk, hn]

theorem setWidth_levelField (w : Word) : (BitVec.ofBool (levelField w)).setWidth 16 = w &&& 1#16 :=
  BitVec.and_one_eq_setWidth_ofBool_getLsbD.symm

/-- R63: the flow level in its place, bit 11. -/
theorem shiftLeft_flowField (w : Word) : (BitVec.ofBool (flowField w)).setWidth 16 <<< 11 = w &&& 0x0800#16 := by
  have hbit : w &&& 0x0800#16 = _ := BitVec.and_twoPow w 11
  rw [hbit, flowField]
  cases w.getLsbD 11 <;> rfl

/-- R62, R65: the encoding of a row's operation with a word's fields is the row's match, and the word outside the mask. -/
theorem encode_withFields (o : Op) (w : Word) : encode (o.withFields w) = o.matchWord ||| (w &&& ~~~o.mask) := by
  rw [← asmWord_eq_encode]
  cases o with
  | enc => exact congrArg (0x1000#16 ||| ·) (setWidth_lowField w 8)
  | setd => exact congrArg (0x3000#16 ||| ·) (setWidth_levelField w)
  | setc => exact congrArg (0x4000#16 ||| ·) (setWidth_levelField w)
  | setl => exact congrArg (0x5000#16 ||| ·) (setWidth_levelField w)
  | push => exact congrArg (0x6000#16 ||| ·) (setWidth_lowField w 8)
  | rdig => exact congrArg (0x8000#16 ||| ·) (setWidth_lowField w 2)
  | ctrl =>
    have hfields : w &&& ~~~0xF400#16 = (w &&& 0x0800#16) ||| (w &&& (BitVec.allOnes 10).setWidth 16) := by
      rw [← BitVec.and_or_distrib_left]
      rfl
    change 0xA000#16 ||| (BitVec.ofBool (flowField w)).setWidth 16 <<< 11 ||| (w.extractLsb' 0 10).setWidth 16 =
      0xA000#16 ||| (w &&& ~~~0xF400#16)
    rw [shiftLeft_flowField, setWidth_lowField, hfields, BitVec.or_assoc]
  | conv => exact congrArg (0xB000#16 ||| ·) (setWidth_lowField w 10)
  | fmt | latch | rcyc => simp [Op.withFields, Machine.asmWord, Op.matchWord, Op.mask]

/-- A word that lies in a row is determined by its fields. -/
theorem encode_withFields_of_matches {w : Word} {o : Op} (h : w &&& o.mask = o.matchWord) :
    encode (o.withFields w) = w := by
  rw [encode_withFields, ← h, ← BitVec.and_or_distrib_left, BitVec.or_not_self, BitVec.and_allOnes]

/-- Settles O2: a legal word lies in a row, whose mask and fields together are the whole word. -/
theorem legalWordIsTheEncoding : Obligations.LegalWordIsTheEncoding := by
  intro w i h
  obtain ⟨o, hm, rfl⟩ := exists_matches_of_decode_ok h
  exact encode_withFields_of_matches hm

/-! ### The opcode map (R65, R66) -/

theorem matches_iff_decode_ok (w : Word) (o : Op) :
    w &&& o.mask = o.matchWord ↔ decode w = .ok (o.withFields w) := by
  refine ⟨decode_of_matches, fun h => ?_⟩
  obtain ⟨o', hm, heq⟩ := exists_matches_of_decode_ok h
  obtain rfl : o = o' := by rw [← op_withFields o w, heq, op_withFields]
  exact hm

/-- Settles O3: decoding in a row's terms, and the operation code tells the rows apart. -/
theorem rowSelectsExactlyItsWords : Obligations.RowSelectsExactlyItsWords :=
  ⟨matches_iff_decode_ok, fun _ _ _ => matches_inj⟩

/-- R65: the unassigned operation codes. -/
theorem opOf_eq_none_iff (code : BitVec 4) : opOf code = none ↔ code ∈ [0x0#4, 0xC#4, 0xD#4, 0xE#4, 0xF#4] := by
  revert code; decide

/-- R65: a match is its operation's code shifted up. -/
theorem matchWord_of_opOf {code : BitVec 4} {o : Op} (h : opOf code = some o) :
    o.matchWord = code.setWidth 16 <<< 12 := by
  revert code
  cases o <;> decide

/-- Settles O4: the rule's outer test is whether the code has an operation, whose row then decides. -/
theorem decodeFollowsRule66 : Obligations.DecodeFollowsRule66 := by
  intro w
  cases hop : opOf (w.extractLsb' 12 4) with
  | none =>
    rw [if_pos ((opOf_eq_none_iff _).mp hop)]
    exact decode_of_opOf_none hop
  | some o =>
    rw [if_neg (mt (opOf_eq_none_iff _).mpr (by simp [hop]))]
    exact ⟨o, matchWord_of_opOf hop, by simp [decode_of_opOf_some hop]⟩

/-- Settles O6: eight words are written out encodings; the other three are not of any row. -/
theorem writtenOutWordsDecode : Obligations.WrittenOutWordsDecode :=
  ⟨decode_encode (.enc 0x2D), decode_encode .fmt, decode_encode (.setd true), decode_encode (.push 0xA5),
    decode_encode (.rdig 3), decode_encode (.ctrl 136 true), decode_encode (.ctrl 100 false), decode_encode (.conv 921),
    by decide, by decide, by decide⟩

end Sys2Proof
end

section
/-! PROOFS. How many of the 65536 words each outcome of decoding has (R67): the operation code is one of 16, and the words of a
row are those its mask leaves free. -/
namespace Sys2Proof

open Finset

/-! ### Counting words -/

/-- A word meets a mask and match exactly when it has the match's bits where the mask has a 1. -/
theorem and_eq_iff_agrees {n : Nat} {mask value : BitVec n} (h : value &&& mask = value) (w : BitVec n) :
    w &&& mask = value ↔ ∀ i : Fin n, mask.getLsb i = true → w.getLsb i = value.getLsb i := by
  constructor
  · rintro rfl i hi
    simp_all
  · intro hw
    ext k hk
    rw [← h, BitVec.getElem_and, BitVec.getElem_and]
    by_cases hm : mask[k] = true
    · have hbit : w[k] = value[k] := hw ⟨k, hk⟩ hm
      rw [hbit]
    · simp [hm]

/-- The words that meet a mask and match: one choice for a bit of the mask, two for a bit outside it. -/
theorem card_masked {n : Nat} {mask value : BitVec n} (h : value &&& mask = value) :
    #{w : BitVec n | w &&& mask = value} = ∏ i : Fin n, if mask.getLsb i then 1 else 2 := by
  have hmem (f : Fin n → Bool) : f ∈ Fintype.piFinset (fun i => if mask.getLsb i then {value.getLsb i} else univ) ↔
      ∀ i, mask.getLsb i = true → f i = value.getLsb i := by
    rw [Fintype.mem_piFinset]
    refine forall_congr' fun i => ?_
    cases mask.getLsb i <;> simp
  have hbits : #{w : BitVec n | w &&& mask = value} =
      #(Fintype.piFinset fun i : Fin n => if mask.getLsb i then {value.getLsb i} else univ) := by
    refine card_nbij' (fun w i => w.getLsb i) BitVec.ofFnLE (fun w hw => ?_) (fun f hf => ?_) (fun w _ => ?_)
      fun f _ => ?_
    · exact mem_coe.mpr ((hmem _).mpr ((and_eq_iff_agrees h w).mp (by simpa using hw)))
    · refine mem_coe.mpr (mem_filter.mpr ⟨mem_univ _, (and_eq_iff_agrees h _).mpr fun i hi => ?_⟩)
      rw [BitVec.getLsb_ofFnLE]
      exact (hmem f).mp hf i hi
    · ext k hk
      simp
    · funext i
      exact BitVec.getLsb_ofFnLE f i
  rw [hbits, Fintype.card_piFinset]
  refine prod_congr rfl fun i _ => ?_
  cases mask.getLsb i <;> simp

/-- Counting over the numbers below `2 ^ n` is counting the words of `n` bits. -/
theorem countP_range_eq_card {n N : Nat} (hN : N = 2 ^ n) (p : BitVec n → Bool) :
    (List.range N).countP (fun k => p (BitVec.ofNat n k)) = #{w : BitVec n | p w} := by
  subst hN
  have hnodup : ((List.range (2 ^ n)).map (BitVec.ofNat n)).Nodup := by
    refine List.nodup_range.map_on fun a ha b hb hab => ?_
    simpa [Nat.mod_eq_of_lt (List.mem_range.mp ha), Nat.mod_eq_of_lt (List.mem_range.mp hb)] using
      congrArg BitVec.toNat hab
  have hall (w : BitVec n) : w ∈ (List.range (2 ^ n)).map (BitVec.ofNat n) :=
    List.mem_map.mpr ⟨w.toNat, List.mem_range.mpr w.isLt, by simp⟩
  have hset : ({w : BitVec n | p w} : Finset _) = (((List.range (2 ^ n)).map (BitVec.ofNat n)).filter p).toFinset := by
    ext w
    simp [hall w]
  rw [hset, List.toFinset_card_of_nodup (hnodup.filter _), ← List.countP_eq_length_filter, List.countP_map]
  rfl

theorem card_bitVec (n : Nat) : Fintype.card (BitVec n) = 2 ^ n := by
  rw [← FinEnum.card_eq_fintypeCard, FinEnum.card_bitVec]

/-- Of three properties of which each element has exactly one, the third is counted by the other two. The counts are
variables: the kernel would evaluate a sum of closed ones. -/
theorem card_eq_of_partition {α : Type} [Fintype α] [DecidableEq α] {p q r : α → Prop} [DecidablePred p]
    [DecidablePred q] [DecidablePred r] {a b c : Nat} (hnot : ∀ x, ¬p x ↔ q x ∨ r x) (hqr : ∀ x, q x → ¬r x)
    (hp : #{x | p x} = a) (hq : #{x | q x} = b) (hcard : Fintype.card α = a + b + c) : #{x | r x} = c := by
  have hrest : #{x | ¬p x} = b + #{x | r x} := by
    rw [filter_congr fun x _ => hnot x, filter_or, card_union_of_disjoint (disjoint_filter.mpr fun x _ => hqr x), hq]
  have hall : a + #{x | ¬p x} = Fintype.card α := by rw [← hp, card_filter_add_card_filter_not, card_univ]
  omega

/-! ### The outcomes by the operation code (R66) -/

/-- The words of one operation code are it with any 12 bits after it. -/
theorem card_opcode (code : BitVec 4) : #{w : Word | w.extractLsb' 12 4 = code} = 4096 := by
  have hrest : #{w : Word | w.extractLsb' 12 4 = code} = #(univ : Finset (BitVec 12)) := by
    refine card_nbij' (fun w => w.extractLsb' 0 12) (fun r => code ++ r) (fun w _ => mem_coe.mpr (mem_univ _))
      (fun r _ => ?_) (fun w hw => ?_) fun r _ => BitVec.extractLsb'_append_eq_right
    · exact mem_coe.mpr (mem_filter.mpr ⟨mem_univ _, BitVec.extractLsb'_append_eq_left⟩)
    · obtain ⟨-, rfl⟩ := mem_filter.mp (mem_coe.mp hw)
      exact BitVec.extractLsb'_append_extractLsb'
  rw [hrest, card_univ, card_bitVec]
  norm_num

/-- A set of words, counted by the operation code. -/
theorem card_eq_sum_opcodes (p : Word → Prop) [DecidablePred p] :
    #{w : Word | p w} = ∑ code : BitVec 4, #{w : Word | w.extractLsb' 12 4 = code ∧ p w} := by
  rw [card_eq_sum_card_fiberwise (f := fun w : Word => w.extractLsb' 12 4) (t := univ) fun _ _ =>
    mem_coe.mpr (mem_univ _)]
  simp only [filter_filter, and_comm]

/-- The number of words of a row: the bits outside its mask are free. -/
def Op.rowSize (o : Op) : Nat := ∏ i : Fin 16, if o.mask.getLsb i then 1 else 2

theorem card_row (o : Op) : #{w : Word | w &&& o.mask = o.matchWord} = o.rowSize :=
  card_masked (by cases o <;> rfl)

theorem decode_eq_illegalOpcode_iff (w : Word) :
    decode w = .error .illegalOpcode ↔ opOf (w.extractLsb' 12 4) = none := by
  cases hop : opOf (w.extractLsb' 12 4) with
  | none => simp [decode_of_opOf_none hop]
  | some o => by_cases hm : w &&& o.mask = o.matchWord <;> simp [decode_of_opOf_some hop, hm]

theorem legalWord_eq_true_iff (w : Word) :
    legalWord w = true ↔ ∃ o, opOf (w.extractLsb' 12 4) = some o ∧ w &&& o.mask = o.matchWord := by
  cases hop : opOf (w.extractLsb' 12 4) with
  | none => simp [legalWord, decode_of_opOf_none hop]
  | some o => by_cases hm : w &&& o.mask = o.matchWord <;> simp [legalWord, decode_of_opOf_some hop, hm]

theorem opOf_inj {a b : BitVec 4} {o : Op} (ha : opOf a = some o) (hb : opOf b = some o) : a = b := by
  revert a b
  cases o <;> decide

theorem card_legal_opcode (code : BitVec 4) :
    #{w : Word | w.extractLsb' 12 4 = code ∧ legalWord w = true} = (opOf code).elim 0 Op.rowSize := by
  cases hop : opOf code with
  | none =>
    refine card_eq_zero.mpr (filter_eq_empty_iff.mpr ?_)
    rintro w - ⟨rfl, hw⟩
    obtain ⟨o, ho, -⟩ := (legalWord_eq_true_iff w).mp hw
    simp [hop] at ho
  | some o =>
    refine (congrArg card (filter_congr fun w _ => ⟨?_, fun hm => ?_⟩)).trans (card_row o)
    · rintro ⟨rfl, hw⟩
      obtain ⟨o', ho', hm⟩ := (legalWord_eq_true_iff w).mp hw
      obtain rfl : o = o' := Option.some.inj (hop.symm.trans ho')
      exact hm
    · have hcode := opOf_opcode_of_matches hm
      exact ⟨opOf_inj hcode hop, (legalWord_eq_true_iff w).mpr ⟨o, hcode, hm⟩⟩

theorem card_illegalOpcode_opcode (code : BitVec 4) :
    #{w : Word | w.extractLsb' 12 4 = code ∧ decode w = .error .illegalOpcode} =
      (opOf code).elim 4096 fun _ => 0 := by
  cases hop : opOf code with
  | none =>
    refine (congrArg card (filter_congr fun w _ => and_iff_left_of_imp ?_)).trans (card_opcode code)
    rintro rfl
    exact (decode_eq_illegalOpcode_iff w).mpr hop
  | some o =>
    refine card_eq_zero.mpr (filter_eq_empty_iff.mpr ?_)
    rintro w - ⟨rfl, hw⟩
    simp [(decode_eq_illegalOpcode_iff w).mp hw] at hop

/-! ### The three counts (R67) -/

theorem card_legal : #{w : Word | legalWord w = true} = 3597 := by
  rw [card_eq_sum_opcodes, sum_congr rfl fun code _ => card_legal_opcode code]
  decide

theorem card_illegalOpcode : #{w : Word | decode w = .error .illegalOpcode} = 20480 := by
  rw [card_eq_sum_opcodes, sum_congr rfl fun code _ => card_illegalOpcode_opcode code]
  decide

/-- R66: decoding is total: a word that is not legal has one of the two faults. -/
theorem legalWord_ne_true_iff (w : Word) :
    ¬legalWord w = true ↔ decode w = .error .illegalOpcode ∨ decode w = .error .reservedField := by
  cases hd : decode w with
  | ok i => simp [legalWord, hd]
  | error f => cases f <;> simp [legalWord, hd]

/-- Settles O5: the rows' sizes summed over the assigned codes, 4096 words for each unassigned code, and the rest. -/
theorem legalAndIllegalWordCounts : Obligations.LegalAndIllegalWordCounts := by
  have hcount (p : Word → Bool) : (List.range 65536).countP (fun k => p (BitVec.ofNat 16 k)) = #{w : Word | p w} :=
    countP_range_eq_card (by norm_num) p
  have hill := hcount fun w => decide (decode w = .error .illegalOpcode)
  have hres := hcount fun w => decide (decode w = .error .reservedField)
  simp only [decide_eq_true_eq] at hill hres
  have hrest : #{w : Word | decode w = .error .reservedField} = 41459 :=
    card_eq_of_partition legalWord_ne_true_iff (fun w hill hres => by simp [hill] at hres) card_legal card_illegalOpcode
      (card_bitVec 16)
  exact ⟨(hcount legalWord).trans card_legal, hill.trans card_illegalOpcode, hres.trans hrest⟩

end Sys2Proof
end

section
/-! PROOFS. Operations as commands: the string port only FMT reads (R33, R64), a compound operation against its expansion (R70),
and one iteration of the host's loop (R71). -/
namespace Sys2Proof.Machine

open Sys2Proof.Claims

/-! ### The string port (R33, R64) -/

theorem driveClock_withStrPort (v : Level) (s : State) (str : List Byte) :
    driveClock v { s with strPort := str } = { driveClock v s with strPort := str } := by
  simp only [driveClock]
  split <;> rfl

theorem driveLatch_withStrPort (v : Level) (s : State) (str : List Byte) :
    driveLatch v { s with strPort := str } = { driveLatch v s with strPort := str } := by
  simp only [driveLatch]
  split <;> rfl

/-- Settles O42, operation by operation: no other meaning mentions the port. -/
theorem onlyFmtReadsTheStringPort : Obligations.OnlyFmtReadsTheStringPort := by
  intro i s str hi
  cases i with
  | fmt => exact absurd rfl hi
  | setc v => exact ⟨_, rfl, congrArg Host.Outcome.next (driveClock_withStrPort v s str)⟩
  | setl v => exact ⟨_, rfl, congrArg Host.Outcome.next (driveLatch_withStrPort v s str)⟩
  | push b => exact ⟨_, rfl, congrArg Host.Outcome.next (by rw [pushByte_eq, pushByte_eq])⟩
  | latch => exact ⟨_, rfl, congrArg Host.Outcome.next (by rw [latchPulse_eq, latchPulse_eq])⟩
  | rdig j => exact ⟨_, rfl, congrArg Host.Outcome.next (by rw [refreshDigit_eq, refreshDigit_eq]; rfl)⟩
  | rcyc => exact ⟨_, rfl, congrArg Host.Outcome.next (by rw [refreshCycle_eq, refreshCycle_eq]; rfl)⟩
  | enc | setd | ctrl | conv => exact ⟨_, rfl, rfl⟩

/-! ### A command that is an operation -/

theorem exec_pending (i : Instr) (s t : State) (h : exec i s = .next t) : t.pending = s.pending := by
  obtain ⟨-, -, hpending, -⟩ := eachElementHasOnlyItsWriters i s t h
  exact hpending

theorem exec_strPort (i : Instr) (s t : State) (h : exec i s = .next t) : t.strPort = s.strPort := by
  obtain ⟨-, -, -, hport, -⟩ := eachElementHasOnlyItsWriters i s t h
  exact hport

theorem runCommands_cons_of_exec {c : Command} {i : Instr} {s u : State} (hs : s.pending = [])
    (hc : decode c.word = .ok i) (hu : exec i (beginCommand c [] s) = .next u) (rest : List Command) :
    runCommands (c :: rest) s = runCommands rest (finishCommand u) := by
  refine runCommands_cons ?_ rest
  have hbegin : beginCommand c [] (issue [c] s) = beginCommand c [] s := rfl
  rw [step_cons _ c [] (by simp [hs]), hbegin, perform_ok _ i _ hc, hu]
  rfl

/-- R153, R240: the latched words of a finished command join the display trace. -/
theorem displayTrace_finishCommand (s : State) :
    displayTrace (finishCommand s) = displayTrace s ++ latchTrace s.response := by
  simp [displayTrace, latchTrace_append]

/-! ### Operations one after another, and the same operations as commands (R70) -/

theorem IgnoresHostSide.comp {f g : State → State} (hg : IgnoresHostSide g) (hf : IgnoresHostSide f) :
    IgnoresHostSide fun s => g (f s) := by
  intro s
  obtain ⟨es, hes, hfree⟩ := hf s
  obtain ⟨es', hes', hfree'⟩ := hg (f s)
  exact ⟨es ++ es', by rw [hes', hes, List.append_assoc], fun cs r rs => by
    simp only [hfree, hfree', List.append_assoc]⟩

theorem execSeq_cons_of_exec {i : Instr} {s t : State} (h : exec i s = .next t) (rest : List Instr) :
    execSeq (i :: rest) s = execSeq rest t := by
  simp only [execSeq, h]

theorem execSeq_singleton (i : Instr) (s : State) : execSeq [i] s = exec i s := by
  obtain ⟨t, ht, -⟩ := exec_completes_writesOnly i s
  rw [execSeq_cons_of_exec ht, ht, execSeq]

/-- R200, R11: a sequence of operations completes, and reads no response and no waiting command. -/
theorem execSeq_ignoresHostSide (ops : List Instr) :
    ∃ f, (∀ s, execSeq ops s = .next (f s)) ∧ IgnoresHostSide f := by
  induction ops with
  | nil => exact ⟨id, fun _ => rfl, .of_silent (fun _ => rfl) fun _ _ _ _ => rfl⟩
  | cons i rest ih =>
    obtain ⟨f, hf, hfree⟩ := exec_ignoresHostSide i
    obtain ⟨g, hg, hgfree⟩ := ih
    exact ⟨fun s => g (f s), fun s => by rw [execSeq_cons_of_exec (hf s), hg], hgfree.comp hfree⟩

/-- The command of an operation with nothing on the string port. -/
def plainCommand (i : Instr) : Command := ⟨encode i, []⟩

/-- The state in which a command with nothing on the string port is performed, none waiting behind it. -/
def State.started (s : State) : State := { s with pending := [], strPort := [], response := [] }

/-- R70: operations issued as commands leave the block as the operations inside one response do, and show the same trace. -/
theorem runCommands_plainCommands (ops : List Instr) : ∀ s : State, s.pending = [] →
    ∃ t u, runCommands (ops.map plainCommand) s = .next t ∧ execSeq ops s.started = .next u ∧ SameBlock t u ∧
      displayTrace t = displayTrace s ++ latchTrace u.response := by
  induction ops with
  | nil =>
    intro s _
    exact ⟨s, s.started, rfl, rfl, ⟨rfl, rfl, rfl, rfl, rfl, rfl, rfl, rfl⟩, by simp [State.started, latchTrace]⟩
  | cons i rest ih =>
    intro s hs
    obtain ⟨v, hv, -⟩ := exec_completes_writesOnly i s.started
    have hpending : v.pending = [] := exec_pending i s.started v hv
    have hport : v.strPort = [] := exec_strPort i s.started v hv
    have hstart : (finishCommand v).started = v.withHostSide [] [] (v.responses ++ [v.response]) := by
      simp [State.started, State.withHostSide, finishCommand, hport]
    have hshown : displayTrace (finishCommand v) = displayTrace s ++ latchTrace v.response := by
      rw [displayTrace_finishCommand, displayTrace, exec_responses i _ v hv]
      rfl
    obtain ⟨f, hf, hfree⟩ := execSeq_ignoresHostSide rest
    obtain ⟨es, hes, hsame⟩ := hfree v
    obtain ⟨t, u, hrun, hseq, hblock, htrace⟩ := ih (finishCommand v) hpending
    rw [hstart, hf, hsame] at hseq
    obtain rfl := Host.Outcome.next.inj hseq
    refine ⟨t, f v, (runCommands_cons_of_exec (c := plainCommand i) hs (decode_encode i) hv _).trans hrun, ?_, ?_, ?_⟩
    · rw [execSeq_cons_of_exec hv, hf]
    · exact ⟨hblock.buf, hblock.pump, hblock.chain, hblock.q, hblock.data, hblock.clk, hblock.lat, hblock.fault⟩
    · rw [htrace, hshown, hes, latchTrace_append, List.append_assoc]
      rfl

/-! ### The compound operations (R70) -/

/-- R136: rounds of a push, one for each bit number. -/
theorem execSeq_shiftBits (b : Byte) (ks : List Nat) (s : State) :
    execSeq (ks.flatMap fun k => [.setd (b.getLsbD k), .setc false, .setc true]) s =
      .next (ks.foldl (fun t k => shiftBit (b.getLsbD k) t) s) := by
  induction ks generalizing s with
  | nil => rfl
  | cons k ks ih => exact ih (shiftBit (b.getLsbD k) s)

theorem exec_push_eq_lines (b : Byte) (s : State) : exec (.push b) s = execSeq (pushLines b) s :=
  (execSeq_shiftBits b _ s).symm

/-- R137. -/
theorem exec_latch_eq_lines (s : State) : exec .latch s = execSeq latchLines s := rfl

/-- R150: the slot and the select byte are read before any line is driven. -/
theorem exec_rdig_eq_parts (j : Slot) (s : State) : exec (.rdig j) s = execSeq (rdigParts s j) s := rfl

/-- R152. -/
theorem exec_rcyc_eq_parts (s : State) : exec .rcyc s = execSeq rcycParts s := rfl

theorem SameBlock.of_common {s t u : State} (hs : SameBlock s u) (ht : SameBlock t u) : SameBlock s t :=
  ⟨hs.buf.trans ht.buf.symm, hs.pump.trans ht.pump.symm, hs.chain.trans ht.chain.symm, hs.q.trans ht.q.symm,
    hs.data.trans ht.data.symm, hs.clk.trans ht.clk.symm, hs.lat.trans ht.lat.symm, hs.fault.trans ht.fault.symm⟩

/-- Settles O51: the compound operation is its expansion inside one response, and the parts as commands of their own
leave what that leaves. -/
theorem macrosAndTheirExpansionsAgree : Obligations.MacrosAndTheirExpansionsAgree := by
  intro s i parts hs hcases
  have hexpand : execSeq [i] s.started = execSeq parts s.started := by
    rw [execSeq_singleton]
    rcases hcases with ⟨b, rfl, rfl⟩ | ⟨rfl, rfl⟩ | ⟨j, rfl, rfl⟩ | ⟨rfl, rfl⟩
    · exact exec_push_eq_lines b _
    · exact exec_latch_eq_lines _
    · exact exec_rdig_eq_parts j s.started
    · exact exec_rcyc_eq_parts _
  obtain ⟨t, u, hrun, hseq, hblock, htrace⟩ := runCommands_plainCommands [i] s hs
  obtain ⟨t', u', hrun', hseq', hblock', htrace'⟩ := runCommands_plainCommands parts s hs
  obtain rfl : u = u' := Host.Outcome.next.inj (hseq.symm.trans (hexpand.trans hseq'))
  exact ⟨t, t', hrun, hrun', hblock.of_common hblock', htrace.trans htrace'.symm⟩

/-! ### The two-cursor loop (R110) -/

/-- The codes of the next `k` slots, by the part of the source not yet consumed. -/
def slotCodes (p : Params) : Nat → List Byte → List Byte
  | 0, _ => []
  | k + 1, r => slotCode p r :: slotCodes p k (slotRest r)

theorem toList_formatSlots (p : Params) (r : List Byte) : (formatSlots p r).toList = slotCodes p 4 r := rfl

/-- R110: the source cursor stands before the part not yet consumed. -/
theorem scanByIndex_eq_slotCodes (p : Params) (r : List Byte) (k i : Nat) :
    scanByIndex p r k i = slotCodes p k (r.drop i) := by
  induction k generalizing i with
  | zero => rfl
  | succ k ih =>
    rw [scanByIndex, slotCodes]
    by_cases hi : r.length ≤ i
    · rw [if_pos hi, ih, List.drop_eq_nil_of_le hi, slotCode_nil, slotRest_nil]
    · have hlt : i < r.length := Nat.lt_of_not_le hi
      rw [if_neg hi, List.getD_eq_getElem r 0 hlt, List.drop_eq_getElem_cons hlt]
      by_cases hpoint : r[i] = 0x2E#8
      · rw [if_pos hpoint, hpoint, ih]
        by_cases hnext : i + 1 < r.length
        · rw [if_pos hnext, List.getD_eq_getElem r 0 hnext, List.drop_eq_getElem_cons hnext, slotCode_point,
            slotRest_point]
        · have hend : r.drop (i + 1) = [] := List.drop_eq_nil_of_le (by omega)
          rw [if_neg hnext, hend, slotCode_point_last, slotRest_point_last, List.drop_eq_nil_of_le (by omega)]
      · rw [if_neg hpoint, ih, slotCode_glyph p _ _ hpoint, slotRest_glyph _ _ hpoint]

/-! ### One iteration of the host's loop (R71) -/

theorem decode_asmWord (i : Instr) : decode (asmWord i) = .ok i := by
  rw [asmWord_eq_encode, decode_encode]

/-- R71, R152: `t` is `s` after `n` refresh cycles, as far as the buffer, the controller and the display are concerned. -/
structure ShowsCycles (n : Nat) (s t : State) : Prop where
  params : t.params = s.params
  buf : t.buf = s.buf
  pump : t.pump = s.pump
  fault : t.fault = s.fault
  pending : t.pending = s.pending
  trace : displayTrace t = displayTrace s ++ (List.replicate n (cycleTrace s.params s.buf)).flatten
  q : t.q = if n = 0 then s.q else s.buf[3] ++ s.params.sel[3]

theorem ShowsCycles.zero (s : State) : ShowsCycles 0 s s :=
  ⟨rfl, rfl, rfl, rfl, rfl, by simp, rfl⟩

theorem ShowsCycles.succ {n : Nat} {s t u : State} (h : ShowsCycles 1 s t) (hn : ShowsCycles n t u) :
    ShowsCycles (n + 1) s u where
  params := hn.params.trans h.params
  buf := hn.buf.trans h.buf
  pump := hn.pump.trans h.pump
  fault := hn.fault.trans h.fault
  pending := hn.pending.trans h.pending
  trace := by
    rw [hn.trace, h.trace, h.params, h.buf]
    simp [List.replicate_succ]
  q := by
    rw [hn.q, h.q, h.params, h.buf]
    simp

/-- R152: one RCYC as a command. -/
theorem showsCycles_refreshCycle (s : State) (hs : s.pending = []) :
    ShowsCycles 1 s (finishCommand (refreshCycle (beginCommand (asmCommand .rcyc) [] s))) := by
  rw [refreshCycle_eq]
  refine ⟨rfl, rfl, rfl, rfl, hs.symm, ?_, rfl⟩
  rw [displayTrace_finishCommand]
  rfl

theorem runCommands_refreshCycles (n : Nat) (s : State) (hs : s.pending = []) :
    ∃ t, runCommands (List.replicate n (asmCommand .rcyc)) s = .next t ∧ ShowsCycles n s t := by
  induction n generalizing s with
  | zero => exact ⟨s, rfl, .zero s⟩
  | succ n ih =>
    have hone := showsCycles_refreshCycle s hs
    obtain ⟨t, hrun, hshows⟩ := ih _ (hone.pending.trans hs)
    refine ⟨t, ?_, hone.succ hshows⟩
    rw [List.replicate_succ, runCommands_cons_of_exec (c := asmCommand .rcyc) hs (decode_asmWord .rcyc) rfl]
    exact hrun

/-- The state after ITER's first two commands, the controller's step and the formatted text (R71). -/
def controlAndFormat (smp : Sample) (f : Level) (text : List Byte) (s : State) : State :=
  let c := conditions s.params smp f
  { s with
    pump := nextPump c s.pump
    buf := formatSlots s.params (scanSource text)
    pending := []
    strPort := []
    response := []
    responses := s.responses ++ [[.control (nextPump c s.pump) (relayWrites s.params c s.pump).2], []] }

theorem runCommands_iterCommands (h : HostParams) (smp : Sample) (f : Level) (text : List Byte) (s : State)
    (hs : s.pending = []) :
    runCommands (iterCommands h smp f text) s =
      runCommands (List.replicate h.refreshRepeat (asmCommand .rcyc)) (controlAndFormat smp f text s) := by
  rw [iterCommands, runCommands_cons_of_exec (c := asmCommand (.ctrl smp f)) hs (decode_asmWord _) rfl,
    runCommands_cons_of_exec (c := asmFmt text) rfl (decode_asmWord .fmt) rfl]
  congr 1
  simp [controlAndFormat, finishCommand, beginCommand, State.setBuf, State.setPump, State.emit, asmFmt]

/-- R71: neither the controller's record nor FMT adds to the display trace. -/
theorem displayTrace_controlAndFormat (smp : Sample) (f : Level) (text : List Byte) (s : State) :
    displayTrace (controlAndFormat smp f text s) = displayTrace s := by
  simp [displayTrace, controlAndFormat, latchTrace]

/-- Settles O52: the controller's step and the formatted text, and then the cycles show the buffer. -/
theorem iterIsOneLoopIteration : Obligations.IterIsOneLoopIteration := by
  intro h smp f text s hs
  obtain ⟨t, hrun, hshows⟩ := runCommands_refreshCycles h.refreshRepeat (controlAndFormat smp f text s) rfl
  refine ⟨t, _, rfl, (runCommands_iterCommands h smp f text s hs).trans hrun, hshows.pump, hshows.fault, hshows.pending,
    ?_, ?_, fun hpos => ?_⟩
  · rw [hshows.buf, scanByIndex_eq_slotCodes]
    rfl
  · rw [hshows.trace, hshows.buf, displayTrace_controlAndFormat]
    rfl
  · rw [hshows.q, if_neg hpos.ne', hshows.buf]
    rfl

end Sys2Proof.Machine
end

section
/-! PROOFS. The segment encoder (41_segment_encoder.md): the rows of the code table, ENC (R103), the point's bit (R104), and the
combined codes (R105). -/
namespace Sys2Proof.Machine

open Sys2Proof.Claims

/-! ### The rows of the code table (R103) -/

/-- R103, R102: the character of the digit `k` gets that digit's code. -/
theorem encodeChar_digit (p : Params) (k : Fin 10) : encodeChar p (0x30#8 + BitVec.ofNat 8 k) = p.segDigit[k] := by
  have hchar : (0x30#8 + BitVec.ofNat 8 k).toNat = 0x30 + k := by revert k; decide
  have hle : 0x30 + (k : Nat) ≤ 0x39 := by omega
  simp [encodeChar, hchar, hle]

/-- R103: the point alone. -/
@[simp] theorem encodeChar_point (p : Params) : encodeChar p 0x2E#8 = p.segDp := rfl

/-- R103: the dash. -/
@[simp] theorem encodeChar_dash (p : Params) : encodeChar p 0x2D#8 = p.segDash := rfl

/-- R103: every other character is blank. -/
theorem encodeChar_other (p : Params) {c : Byte} (hdigit : ¬(0x30 ≤ c.toNat ∧ c.toNat ≤ 0x39)) (hpoint : c ≠ 0x2E#8)
    (hdash : c ≠ 0x2D#8) : encodeChar p c = p.segBlank := by
  rw [encodeChar, dif_neg hdigit, if_neg hpoint, if_neg hdash]

/-- R102: a character in the range of the digits is the character of one of the ten. -/
theorem exists_digit {c : Byte} (h : 0x30 ≤ c.toNat ∧ c.toNat ≤ 0x39) :
    ∃ k : Fin 10, c = 0x30#8 + BitVec.ofNat 8 k := by
  refine ⟨⟨c.toNat - 0x30, by omega⟩, ?_⟩
  bv_omega

/-! ### ENC (R103) -/

/-- Settles O8: the word is the row's match with the character ORed in, and ENC only adds its answer to the response. -/
theorem encReturnsTheSegmentCode : Obligations.EncReturnsTheSegmentCode :=
  fun c _ => ⟨⟨(asmWord_eq_encode (.enc c)).symm, rfl, rfl, rfl⟩, rfl⟩

/-! ### The point's bit (R104) -/

/-- R104: every glyph code but `SEG_DP` has the point dark. -/
theorem GlyphCode.getLsbD_seven {p : Params} (hdigits : p.DigitsDark) (hdisjoint : p.PointDisjoint) {g : Byte}
    (hg : GlyphCode p g) (hne : g ≠ p.segDp) : g.getLsbD 7 = true := by
  obtain ⟨hblank, hdash, -⟩ := hdisjoint
  obtain ⟨k, rfl⟩ | rfl | rfl | rfl := hg
  · exact hdigits k
  · exact hblank
  · exact absurd rfl hne
  · exact hdash

/-- R104: ANDing with `SEG_DP`'s value lights the point and leaves the other segments. -/
theorem getLsbD_and_point (g : Byte) (k : Fin 8) :
    (g &&& 0x7F#8).getLsbD k = if k = 7 then false else g.getLsbD k := by
  have hpoint : (0x7F#8).getLsbD k = decide (k ≠ 7) := by revert k; decide
  rw [BitVec.getLsbD_and, hpoint]
  by_cases hk : k = 7 <;> simp [hk]

/-- Settles O9: the digits, the blank and the dash are dark, and `SEG_DP` is a mask of the seven other segments. -/
theorem pointLightsOnlyTheDecimalPoint : Obligations.PointLightsOnlyTheDecimalPoint := by
  rintro p ⟨-, -, -, -, hdigits, hdisjoint, -⟩
  have ⟨_, _, hdp⟩ := hdisjoint
  refine ⟨hdp, fun g hg => ⟨hg.getLsbD_seven hdigits hdisjoint, fun k => ?_⟩⟩
  rw [hdp]
  exact getLsbD_and_point g k

/-! ### The combined codes (R105) -/

/-- R105: the table's last row, under every character that is no digit and no dash. -/
theorem combinedCode_other {c : Byte} (hdigit : ¬(0x30 ≤ c.toNat ∧ c.toNat ≤ 0x39)) (hdash : c ≠ 0x2D#8) :
    combinedCode c = 0x7F := by
  have hdash' : c.toNat ≠ 0x2D := fun h => hdash (BitVec.eq_of_toNat_eq h)
  unfold combinedCode
  split
  case h_12 => rfl
  all_goals omega

/-- R105: under the default codes the table is the character's own code ANDed with `SEG_DP`. -/
theorem encodeChar_default_and_point (c : Byte) :
    encodeChar Params.default c &&& Params.default.segDp = combinedCode c := by
  by_cases hdigit : 0x30 ≤ c.toNat ∧ c.toNat ≤ 0x39
  · obtain ⟨k, rfl⟩ := exists_digit hdigit
    rw [encodeChar_digit]
    revert hdigit k
    decide
  by_cases hdash : c = 0x2D#8
  · rw [hdash, encodeChar_dash]
    rfl
  rw [combinedCode_other hdigit hdash]
  by_cases hpoint : c = 0x2E#8
  · rw [hpoint, encodeChar_point]
    rfl
  · rw [encodeChar_other _ hdigit hpoint hdash]
    rfl

/-- Settles O10: the scan meets the point first and folds it into the character before it, in slot 0. -/
theorem combinedCodesAreTheTable : Obligations.CombinedCodesAreTheTable := by
  intro c s hparams hstr hc
  have hscan : scanSource [c, 0x2E#8] = [0x2E#8, c] := scanSource_eq_reverse _ (by simpa using hc)
  refine ⟨_, rfl, ?_⟩
  calc slotCode s.params (scanSource s.strPort)
      = encodeChar Params.default c &&& Params.default.segDp := by rw [hparams, hstr, hscan, slotCode_point]
    _ = combinedCode c := encodeChar_default_and_point c

end Sys2Proof.Machine
end

section
/-! PROOFS. The numeric formatter (42_numeric_formatter.md): the loop (R110), the terminator (R111, R112), the eight characters
that count (R115), and a point in each place of a string of five (R116). -/
namespace Sys2Proof.Machine

open Sys2Proof.Claims

/-! ### FMT by its slots (R110) -/

/-- R110: a string and a buffer stand in FMT's answer as soon as the buffer holds the codes of the string's slots. -/
theorem exec_fmt_eq_of_slotCodes {s : State} {str : List Byte} {b : Vector Byte 4}
    (h : b.toList = slotCodes s.params 4 (scanSource str)) :
    exec .fmt { s with strPort := str } = .next { s with strPort := str, buf := b } := by
  have hslots : formatSlots s.params (scanSource str) = b :=
    Vector.toList_inj.mp ((toList_formatSlots _ _).trans h.symm)
  rw [← hslots]
  rfl

@[simp] theorem slotCodes_zero (p : Params) (r : List Byte) : slotCodes p 0 r = [] := rfl

/-- R113: a point and the character it is folded into make one slot. -/
@[simp] theorem slotCodes_point (p : Params) (k : Nat) (d : Byte) (rest : List Byte) :
    slotCodes p (k + 1) (0x2E#8 :: d :: rest) = (encodeChar p d &&& p.segDp) :: slotCodes p k rest := rfl

/-- R110: a plain character makes one slot. -/
theorem slotCodes_glyph (p : Params) (k : Nat) {c : Byte} (rest : List Byte) (h : c ≠ 0x2E#8) :
    slotCodes p (k + 1) (c :: rest) = encodeChar p c :: slotCodes p k rest := by
  rw [slotCodes, slotCode_glyph p c rest h, slotRest_glyph c rest h]

/-- Settles O11: the scan with a source cursor and the scan of what is left of the source write the same codes. -/
theorem fmtFollowsTheTwoCursorLoop : Obligations.FmtFollowsTheTwoCursorLoop := by
  intro s
  refine ⟨⟨(asmWord_eq_encode .fmt).symm, rfl, rfl, rfl⟩, _, rfl, ?_⟩
  rw [scanByIndex_eq_slotCodes, List.drop_zero]
  rfl

/-! ### The terminator (R111, R112) -/

/-- R111: the source is the string before its first `0x00`. -/
theorem scanSource_append_terminator (a rest : List Byte) (h : ∀ c ∈ a, c ≠ 0x00#8) :
    scanSource (a ++ 0x00#8 :: rest) = scanSource a := by
  have hcut : effectiveString (a ++ 0x00#8 :: rest) = a := by
    rw [effectiveString, List.takeWhile_append_of_pos (by simpa using h)]
    simp
  rw [scanSource, hcut, scanSource_eq_reverse a h]

/-- Settles O12: FMT sees the string only through the scan's source, which ends at the terminator. -/
theorem terminatorEndsTheString : Obligations.TerminatorEndsTheString := by
  intro s a rest h
  refine ⟨⟨formatSlots s.params (scanSource a), ?_, exec_fmt_eq_of_slotCodes rfl⟩, rfl⟩
  apply exec_fmt_eq_of_slotCodes
  rw [scanSource_append_terminator a rest h]
  rfl

/-! ### The characters that count (R115) -/

/-- R115: a slot consumes at most two characters, so `k` slots do not see past the first `2 * k` of the source. -/
theorem slotCodes_append (p : Params) (k : Nat) (r rest : List Byte) (h : 2 * k ≤ r.length) :
    slotCodes p k (r ++ rest) = slotCodes p k r := by
  induction k generalizing r with
  | zero => rfl
  | succ k ih =>
    match r, h with
    | c :: d :: tail, h =>
      simp only [List.length_cons] at h
      by_cases hpoint : c = 0x2E#8
      · subst hpoint
        simp only [List.cons_append, slotCodes_point]
        rw [ih tail (by omega)]
      · rw [List.cons_append, slotCodes_glyph p k _ hpoint, slotCodes_glyph p k _ hpoint,
          ih (d :: tail) (by simp only [List.length_cons]; omega)]

/-- Settles O13: reversed, the dropped characters stand after the eight that four slots can consume. -/
theorem onlyTheLastEightCharactersCount : Obligations.OnlyTheLastEightCharactersCount := by
  intro s dropped kept h hlen
  have hkept : ∀ c ∈ kept, c ≠ 0x00#8 := fun c hc => h c (List.mem_append_right dropped hc)
  refine ⟨formatSlots s.params (scanSource kept), ?_, exec_fmt_eq_of_slotCodes rfl⟩
  apply exec_fmt_eq_of_slotCodes
  rw [toList_formatSlots, scanSource_eq_reverse _ h, scanSource_eq_reverse _ hkept, List.reverse_append,
    slotCodes_append _ _ _ _ (by simpa using hlen)]

/-! ### Five characters with one point (R116) -/

/-- Settles O14: from the last character on, a point and the character before it make one slot, every other character one of
its own; a point in the first place is met after the four slots are full. -/
theorem fivePrintableCharactersFillFourSlots : Obligations.FivePrintableCharactersFillFourSlots := by
  intro s a b c d h
  simp only [List.forall_mem_cons] at h
  obtain ⟨⟨ha0, ha⟩, ⟨hb0, hb⟩, ⟨hc0, hc⟩, ⟨hd0, hd⟩, -⟩ := h
  refine ⟨?_, ?_, ?_, ?_, ?_⟩ <;>
  · apply exec_fmt_eq_of_slotCodes
    rw [scanSource_eq_reverse _ (by simp [ha0, hb0, hc0, hd0])]
    simp [slotCodes_glyph _ _ _ ha, slotCodes_glyph _ _ _ hb, slotCodes_glyph _ _ _ hc, slotCodes_glyph _ _ _ hd]

end Sys2Proof.Machine
end

section
/-! PROOFS. The display bus and the shift register (43_shift_register_bus.md): the three lines, each by its rising edge and its
other drives (R133 to R135), the byte push (R136) and the latch pulse (R137). -/
namespace Sys2Proof.Machine

open Sys2Proof.Claims

/-- R62, R65, R69: an operation's word is its line of assembler, and its match and mask are those of its row. -/
theorem hasEncoding_asmWord (i : Instr) : HasEncoding i.op i (asmWord i) i.op.matchWord i.op.mask :=
  ⟨(asmWord_eq_encode i).symm, rfl, rfl, rfl⟩

/-! ### The lines (R133, R134, R135) -/

/-- Settles O16: neither the chain nor the outputs see the data line before an edge. -/
theorem setdDrivesOnlyTheDataLine : Obligations.SetdDrivesOnlyTheDataLine :=
  fun v s => ⟨hasEncoding_asmWord (.setd v), congrArg Host.Outcome.next (driveData_eq v s)⟩

/-- Settles O17: on a rising edge the chain is the one shifted by R131, otherwise the one there was. -/
theorem setcShiftsOnARisingEdge : Obligations.SetcShiftsOnARisingEdge := by
  intro v s
  refine ⟨hasEncoding_asmWord (.setc v), ?_⟩
  by_cases hrise : s.clk = false ∧ v = true
  · obtain ⟨hclk, rfl⟩ := hrise
    refine ⟨shiftIn s.chain s.data, congrArg Host.Outcome.next (driveClock_rise s hclk), fun k => ?_⟩
    rw [if_pos ⟨hclk, rfl⟩, getLsbD_shiftIn _ _ _ k.isLt]
    simp only [Fin.val_eq_zero_iff]
  · exact ⟨s.chain, congrArg Host.Outcome.next (driveClock_noRise v s hrise), fun k => (if_neg hrise).symm⟩

/-- Settles O18, by the rising edge, which alone latches. -/
theorem setlLatchesOnARisingEdge : Obligations.SetlLatchesOnARisingEdge := by
  intro v s
  refine ⟨hasEncoding_asmWord (.setl v), congrArg Host.Outcome.next ?_⟩
  by_cases hrise : s.lat = false ∧ v = true
  · obtain ⟨hlat, rfl⟩ := hrise
    rw [if_pos ⟨hlat, rfl⟩, driveLatch_rise s hlat]
  · rw [if_neg hrise, driveLatch_noRise v s hrise]

/-! ### The byte push and the latch pulse (R136, R137) -/

/-- Settles O19: each of the eight rounds has one rising edge of `CLK`, and eight shifts move the low half up. -/
theorem pushShiftsOneByteIn : Obligations.PushShiftsOneByteIn :=
  fun b s => ⟨hasEncoding_asmWord (.push b), exec_push_eq_lines b s, congrArg Host.Outcome.next (pushByte_eq b s)⟩

/-- Settles O20: driven low first, `LAT` has one rising edge. -/
theorem latchPublishesTheChain : Obligations.LatchPublishesTheChain :=
  fun s => ⟨hasEncoding_asmWord .latch, exec_latch_eq_lines s, congrArg Host.Outcome.next (latchPulse_eq s)⟩

end Sys2Proof.Machine
end

section
/-! PROOFS. The display multiplexer (44_display_multiplexer.md): the net effect of RDIG (R150) and RCYC (R152), the patterns
they latch (R153), and that these are the only ones unless SETL or LATCH gives another (R154). -/
namespace Sys2Proof.Machine

open Sys2Proof.Claims

/-! ### One digit and the four of a cycle (R150, R152) -/

/-- R151: of the four select bytes only that of slot 0 is odd. -/
theorem getLsbD_zero_oneHot (j : Slot) : (1#8 <<< j.toNat).getLsbD 0 = decide (j = 0) := by
  revert j; decide

/-- Settles O23: the two pushes overwrite the whole chain, and R151 gives the select byte its value. -/
theorem rdigShowsOneSlot : Obligations.RdigShowsOneSlot := by
  intro j s
  have hnet : exec (.rdig j) s = _ := congrArg Host.Outcome.next (refreshDigit_eq j s)
  refine ⟨hasEncoding_asmWord (.rdig j), exec_rdig_eq_parts j s, hnet, fun hsel => ?_⟩
  rw [hnet, sel_eq _ hsel, getLsbD_zero_oneHot]
  rfl

/-- Settles O24: the last of the four slots is the one left shown, and R151 gives the select bytes their values. -/
theorem rcycShowsTheFourSlots : Obligations.RcycShowsTheFourSlots := by
  intro s
  have hnet : exec .rcyc s = _ := congrArg Host.Outcome.next (refreshCycle_eq s)
  refine ⟨hasEncoding_asmWord .rcyc, exec_rcyc_eq_parts s, hnet, fun hsel => ?_⟩
  simp only [hnet, sel_eq _ hsel]
  rfl

/-! ### The patterns a refresh latches (R153) -/

/-- R150: the output word that shows slot `j`, its code above its select byte. -/
def slotPattern (s : State) (j : Slot) : Word := readSlot s j ++ sel s.params j

theorem segOut_slotPattern (s : State) (j : Slot) : segOut (slotPattern s j) = s.buf[j.toNat] :=
  segOut_append _ _

theorem digitEnabled_slotPattern {s : State} (h : s.params.SelectsOneHot) (j k : Slot) :
    digitEnabled (slotPattern s j) k = decide (k = j) :=
  digitEnabled_append_sel s.params h _ j k

theorem oneDigitEnabled_slotPattern {s : State} (h : s.params.SelectsOneHot) (j : Slot) :
    OneDigitEnabled (slotPattern s j) :=
  ⟨j, digitEnabled_slotPattern h j⟩

/-- The slots an operation refreshes, in order (R150, R152). -/
def refreshedSlots : Instr → List Slot
  | .rdig j => [j]
  | .rcyc => [0, 1, 2, 3]
  | _ => []

/-- R132, R150, R152: without SETL and LATCH the patterns latched are those of the refreshed slots, and the last of them, if
there is one, is on the outputs. -/
theorem exec_latches_refreshedSlots {i : Instr} {s t : State} (hsetl : ∀ v, i ≠ .setl v) (hlatch : i ≠ .latch)
    (h : exec i s = .next t) :
    latchTrace t.response = latchTrace s.response ++ (refreshedSlots i).map (slotPattern s) ∧
    t.q = ((refreshedSlots i).map (slotPattern s)).getLastD s.q := by
  cases i with
  | setl v => exact absurd rfl (hsetl v)
  | latch => exact absurd rfl hlatch
  | rdig j =>
    obtain rfl := (Host.Outcome.next.inj h).symm.trans (refreshDigit_eq j s)
    exact ⟨latchTrace_append _ _, rfl⟩
  | rcyc =>
    obtain rfl := (Host.Outcome.next.inj h).symm.trans (refreshCycle_eq s)
    exact ⟨latchTrace_append _ _, rfl⟩
  | push b =>
    obtain ⟨c, d, k, rfl⟩ := exec_writesOnly (.push b) s t h
    exact ⟨(List.append_nil _).symm, rfl⟩
  | setc v =>
    obtain ⟨c, k, rfl⟩ := exec_writesOnly (.setc v) s t h
    exact ⟨(List.append_nil _).symm, rfl⟩
  | setd _ | fmt =>
    cases h
    exact ⟨(List.append_nil _).symm, rfl⟩
  | enc _ | ctrl _ _ | conv _ =>
    cases h
    exact ⟨latchTrace_append _ _, rfl⟩

/-- Settles O25: the entries are the four slots' patterns. -/
theorem refreshCycleEnablesOneDigitAtATime : Obligations.RefreshCycleEnablesOneDigitAtATime := by
  intro s hsel
  obtain ⟨htrace, -⟩ := exec_latches_refreshedSlots (i := .rcyc) (s := s) (by simp) (by simp) rfl
  refine ⟨_, #v[slotPattern s 0, slotPattern s 1, slotPattern s 2, slotPattern s 3], rfl, htrace, fun j k => ?_⟩
  have hentry : #v[slotPattern s 0, slotPattern s 1, slotPattern s 2, slotPattern s 3][j.toNat] = slotPattern s j := by
    obtain rfl | rfl | rfl | rfl := slot_cases j <;> rfl
  rw [hentry]
  exact ⟨segOut_slotPattern s j, digitEnabled_slotPattern hsel j k⟩

/-! ### One digit stays enabled (R154) -/

/-- Settles O27: `Q` ends as the last pattern of a refreshed slot, or, where none was latched, as it was. -/
theorem oneDigitStaysEnabled : Obligations.OneDigitStaysEnabled := by
  intro i s t hsel h
  have hpatterns : ∀ q ∈ (refreshedSlots i).map (slotPattern s), OneDigitEnabled q :=
    List.forall_mem_map.mpr fun j _ => oneDigitEnabled_slotPattern hsel j
  refine ⟨fun hrefresh => ?_, fun hsetl hlatch hq => ?_, fun hsetl hlatch => ?_⟩
  · obtain ⟨j, rfl⟩ | rfl := hrefresh
    · obtain ⟨-, hlast⟩ := exec_latches_refreshedSlots (by simp) (by simp) h
      exact hlast ▸ oneDigitEnabled_slotPattern hsel j
    · obtain ⟨-, hlast⟩ := exec_latches_refreshedSlots (by simp) (by simp) h
      exact hlast ▸ oneDigitEnabled_slotPattern hsel 3
  · obtain ⟨-, hlast⟩ := exec_latches_refreshedSlots hsetl hlatch h
    rw [hlast]
    exact List.forall_mem_cons.mpr ⟨hq, hpatterns⟩ _ List.getLastD_mem_cons
  · obtain ⟨htrace, -⟩ := exec_latches_refreshedSlots hsetl hlatch h
    exact ⟨_, htrace, hpatterns⟩

end Sys2Proof.Machine
end

section
/-! PROOFS. The pressure front end (45_pressure_front_end.md): CONV (R171), the affine form of the pressure for any parameters
(R174), and with the default parameters the closed form, from which the band, the range and the thresholds follow (R172, R173,
R175). -/
namespace Sys2Proof.Machine

open Sys2Proof.Claims

/-! ### The default parameters (R7, R171) -/

theorem volts_default (smp : Sample) : volts Params.default smp = (smp.toNat : Rat) * 5 / 1023 :=
  volts_eq Params.default smp (by decide)

theorem pressure_default (smp : Sample) : pressure Params.default smp = (10 * (smp.toNat : Rat) - 1023) / 6820 := by
  have hband : Params.default.vMax ≠ Params.default.vMin := by norm_num [Params.default]
  rw [pressure_eq _ _ hband, volts_default]
  simp only [Params.default]
  ring

/-- R172: the sample of a voltage. -/
theorem volts_default_lt_iff (smp : Sample) (v : Rat) : volts Params.default smp < v ↔ (smp.toNat : Rat) < v * 1023 / 5 := by
  rw [volts_default, div_lt_iff₀ (by norm_num), lt_div_iff₀ (by norm_num)]

theorem lt_volts_default_iff (smp : Sample) (v : Rat) : v < volts Params.default smp ↔ v * 1023 / 5 < (smp.toNat : Rat) := by
  rw [volts_default, lt_div_iff₀ (by norm_num), div_lt_iff₀ (by norm_num)]

/-- R175: the sample of a pressure. -/
theorem pressure_default_lt_iff (smp : Sample) (q : Rat) :
    pressure Params.default smp < q ↔ (smp.toNat : Rat) < (q * 6820 + 1023) / 10 := by
  rw [pressure_default, div_lt_iff₀ (by norm_num), lt_div_iff₀' (by norm_num), sub_lt_iff_lt_add]

theorem lt_pressure_default_iff (smp : Sample) (q : Rat) :
    q < pressure Params.default smp ↔ (q * 6820 + 1023) / 10 < (smp.toNat : Rat) := by
  rw [pressure_default, lt_div_iff₀ (by norm_num), div_lt_iff₀' (by norm_num), lt_sub_iff_add_lt]

theorem pressure_default_eq_iff (smp : Sample) (q : Rat) :
    pressure Params.default smp = q ↔ 10 * (smp.toNat : Rat) = q * 6820 + 1023 := by
  rw [pressure_default, div_eq_iff (by norm_num), sub_eq_iff_eq_add]

/-! ### CONV (R171) -/

theorem exec_conv (smp : Sample) (s : State) :
    exec (.conv smp) s = .next { s with response := s.response ++ [.pressure (pressure s.params smp)] } := rfl

/-- Settles O28: CONV answers `pressure`, whose quotients are the rule's where their divisors are not 0. -/
theorem convReturnsTheLinearPressure : Obligations.ConvReturnsTheLinearPressure := by
  refine fun smp s => ⟨hasEncoding_asmWord (.conv smp), pressure s.params smp, exec_conv smp s, fun hfull hband => ?_,
    fun hdefault => ?_⟩
  · rw [pressure_eq _ _ hband, volts_eq _ _ hfull]
  · rw [hdefault, pressure_default]

/-! ### The calibrated band (R172) -/

/-- R172: `V_MIN` is sample 102.3, and `V_MAX` is sample 920.7. -/
theorem volts_default_outside_band_iff (smp : Sample) :
    volts Params.default smp < Params.default.vMin ∨ Params.default.vMax < volts Params.default smp ↔
      smp.toNat ≤ 102 ∨ 921 ≤ smp.toNat := by
  have hmin : ⌈Params.default.vMin * 1023 / 5⌉₊ = 103 := by norm_num [Params.default]
  have hmax : ⌊Params.default.vMax * 1023 / 5⌋₊ = 920 := by norm_num [Params.default]
  rw [volts_default_lt_iff, lt_volts_default_iff, ← Nat.lt_ceil, hmin, ← Nat.floor_lt (by norm_num [Params.default]), hmax,
    Nat.lt_succ_iff, Nat.succ_le_iff]

/-- Settles O29 by the band's two edges in sample terms; CONV does not look at the band. -/
theorem outOfBandSamplesByDefault : Obligations.OutOfBandSamplesByDefault := by
  intro smp s hdefault
  rw [outOfBand_iff, exec_conv, hdefault, pressure_default]
  exact ⟨volts_default_outside_band_iff smp, volts_default_outside_band_iff smp, rfl⟩

/-! ### The range (R173) -/

/-- Settles O30: the closed form at the two end samples, and the bounds of the sample between them. -/
theorem pressureIsNotClamped : Obligations.PressureIsNotClamped := by
  refine ⟨?_, ?_, fun smp => ?_⟩
  · rw [pressure_default_eq_iff]
    norm_num
  · rw [pressure_default_eq_iff, show (1023 : Sample).toNat = 1023 from rfl]
    norm_num
  · have hlow : (0 : Rat) ≤ smp.toNat := Nat.cast_nonneg _
    have hhigh : (smp.toNat : Rat) ≤ 1023 := by exact_mod_cast Nat.le_of_lt_succ smp.isLt
    rw [pressure_default]
    constructor <;> linarith

/-! ### The step of one count (R174) -/

/-- R174: the offsets cancel. -/
theorem pressure_sub_pressure (p : Params) (a b : Sample) (hfull : p.adcFull ≠ 0) (hband : p.vMin < p.vMax) :
    pressure p b - pressure p a =
      ((b.toNat : Rat) - (a.toNat : Rat)) * (p.vRef * p.pMax / ((p.adcFull : Rat) * (p.vMax - p.vMin))) := by
  have hfull' : (p.adcFull : Rat) ≠ 0 := Nat.cast_ne_zero.mpr hfull
  have hwidth : p.vMax - p.vMin ≠ 0 := (sub_pos.mpr hband).ne'
  rw [pressure_eq p a hband.ne', pressure_eq p b hband.ne', volts_eq p a hfull, volts_eq p b hfull]
  field_simp
  ring

/-- R174: each count adds a positive step. -/
theorem pressure_lt_pressure (p : Params) (a b : Sample) (hfull : p.adcFull ≠ 0) (hband : p.vMin < p.vMax)
    (hscale : 0 < p.pMax) (href : 0 < p.vRef) (hab : a.toNat < b.toNat) : pressure p a < pressure p b := by
  have hfull' : (0 : Rat) < p.adcFull := Nat.cast_pos.mpr (Nat.pos_of_ne_zero hfull)
  have hstep : 0 < p.vRef * p.pMax / ((p.adcFull : Rat) * (p.vMax - p.vMin)) :=
    div_pos (mul_pos href hscale) (mul_pos hfull' (sub_pos.mpr hband))
  rw [← sub_pos, pressure_sub_pressure p a b hfull hband]
  exact mul_pos (sub_pos.mpr (Nat.cast_lt.mpr hab)) hstep

/-- R174: exactly 0 and exactly `P_MAX` would be the samples 102.3 and 920.7. -/
theorem pressure_default_ne_zero_and_ne_pMax (smp : Sample) :
    pressure Params.default smp ≠ 0 ∧ pressure Params.default smp ≠ Params.default.pMax := by
  constructor <;>
  · intro h
    rw [pressure_default_eq_iff] at h
    norm_num [Params.default] at h
    norm_cast at h
    omega

/-- Settles O31 by the difference of two pressures, its sign, and the closed form with the defaults. -/
theorem pressureIsAffineAndIncreasing : Obligations.PressureIsAffineAndIncreasing :=
  ⟨pressure_sub_pressure, pressure_lt_pressure, pressure_default_ne_zero_and_ne_pMax⟩

/-! ### The thresholds (R175) -/

/-- Settles O32: `LOW_PRESSURE` is sample 218.24, and `HIGH_PRESSURE` is sample 286.44. -/
theorem thresholdsInSampleTerms : Obligations.ThresholdsInSampleTerms := by
  intro smp
  have hlow : ⌈(Params.default.lowPressure * 6820 + 1023) / 10⌉₊ = 219 := by norm_num [Params.default]
  have hhigh : ⌊(Params.default.highPressure * 6820 + 1023) / 10⌋₊ = 286 := by norm_num [Params.default]
  constructor
  · rw [pressure_default_lt_iff, ← Nat.lt_ceil, hlow, Nat.lt_succ_iff]
  · rw [lt_pressure_default_iff, ← Nat.floor_lt (by norm_num [Params.default]), hhigh, Nat.succ_le_iff]

end Sys2Proof.Machine
end

section
/-! PROOFS. The hysteresis controller (46_hysteresis_controller.md): CTRL as one controller step (R183, R185, R187), the rows of
its table (R184), the relay line (R186, R26), and what follows of the pump (R188, R189, R190). -/
namespace Sys2Proof.Machine

open Sys2Proof.Claims

/-! ### One controller step (R183, R185, R186, R187) -/

/-- The state after CTRL (R185). -/
def controlled (smp : Sample) (f : Level) (s : State) : State :=
  let c := conditions s.params smp f
  { s with
    pump := nextPump c s.pump
    response := s.response ++ [.control (nextPump c s.pump) (relayWrites s.params c s.pump).2] }

theorem exec_ctrl (smp : Sample) (f : Level) (s : State) : exec (.ctrl smp f) s = .next (controlled smp f s) := rfl

theorem execSeq_ctrl_cons (smp : Sample) (f : Level) (rest : List Instr) (s : State) :
    execSeq (.ctrl smp f :: rest) s = execSeq rest (controlled smp f s) :=
  execSeq_cons_of_exec (exec_ctrl smp f s) rest

@[simp] theorem controlled_params (smp : Sample) (f : Level) (s : State) : (controlled smp f s).params = s.params := rfl

@[simp] theorem controlled_pump (smp : Sample) (f : Level) (s : State) :
    (controlled smp f s).pump = nextPump (conditions s.params smp f) s.pump := rfl

@[simp] theorem pumpTrace_controlled (smp : Sample) (f : Level) (s : State) :
    pumpTrace (controlled smp f s).response = pumpTrace s.response ++ [nextPump (conditions s.params smp f) s.pump] :=
  List.filterMap_append

/-- R187: the settle of an On write. -/
theorem settleMs_on (p : Params) (line : PumpState) :
    settleMs p line .on = if p.settleOnSelfLoop = false ∧ line = .on then 0 else p.settleOnMs := by
  simp only [settleMs, eq_comm]

/-- R187: the settle of an Off write. -/
theorem settleMs_off (p : Params) (line : PumpState) :
    settleMs p line .off = if p.settleOnSelfLoop = false ∧ line = .off then 0 else p.settleOffMs := by
  simp only [settleMs, eq_comm]

/-- R186: one write for each rule that fires; an Off write finds the line where the On write left it. -/
theorem relayWrites_eq (p : Params) (c : Conditions) (before : PumpState) :
    (relayWrites p c before).2 =
      (if onFire c then [⟨.on, settleMs p before .on⟩] else []) ++
      (if offFire c then [⟨.off, settleMs p (if onFire c then .on else before) .off⟩] else []) := by
  by_cases hon : onFire c = true <;> by_cases hoff : offFire c = true <;> simp [relayWrites, relayWrite, hon, hoff]

/-- Settles O33: the two rules of R183, and R186's writes with R187's settles. -/
theorem ctrlIsOneControllerStep : Obligations.CtrlIsOneControllerStep := by
  intro smp f s P p oob onFires offFires
  have hon : onFire (conditions P smp f) = true ↔ onFires := by rw [onFire_iff, outOfBand_iff]
  have hoff : offFire (conditions P smp f) = true ↔ offFires := by rw [offFire_iff, outOfBand_iff]
  refine ⟨hasEncoding_asmWord (.ctrl smp f), _, _, exec_ctrl smp f s, ?_, ?_, ?_, _, _, relayWrites_eq _ _ _, ?_⟩
  · intro h
    rw [nextPump_eq, if_pos (hoff.mpr h)]
  · intro h h'
    rw [nextPump_eq, if_neg (mt hoff.mp h), if_pos (hon.mpr h')]
  · intro h h'
    rw [nextPump_eq, if_neg (mt hoff.mp h), if_neg (mt hon.mp h')]
  · rw [settleMs_on, settleMs_off]
    by_cases h : onFires <;> simp [P, hon, hoff, h]

/-! ### When the rules fire (R184) -/

theorem offFire_eq_false_iff (p : Params) (smp : Sample) (f : Level) :
    offFire (conditions p smp f) = false ↔
      pressure p smp ≤ p.highPressure ∧ f = true ∧ ¬(p.failsafeOob && outOfBand p smp) = true := by
  rw [← Bool.not_eq_true, offFire_iff, not_or, not_or, not_lt, Bool.not_eq_false, Bool.and_eq_true]

/-- R183: with thresholds in order the two rules never fire together. -/
theorem offFire_eq_false_of_onFire {p : Params} {smp : Sample} {f : Level} (hgap : p.lowPressure ≤ p.highPressure)
    (hon : onFire (conditions p smp f) = true) : offFire (conditions p smp f) = false := by
  obtain ⟨hlow, hflow, hband⟩ := (onFire_iff p smp f).mp hon
  exact (offFire_eq_false_iff p smp f).mpr ⟨hlow.le.trans hgap, hflow, by rwa [Bool.and_eq_true]⟩

section Rows
variable {p : Params} {smp : Sample}

theorem fires_of_low (hgap : p.lowPressure ≤ p.highPressure) (hband : ¬(p.failsafeOob && outOfBand p smp) = true)
    (hlow : pressure p smp < p.lowPressure) :
    onFire (conditions p smp true) = true ∧ offFire (conditions p smp true) = false := by
  have hon := (onFire_iff p smp true).mpr ⟨hlow, rfl, by rwa [← Bool.and_eq_true]⟩
  exact ⟨hon, offFire_eq_false_of_onFire hgap hon⟩

theorem fires_of_dead (hband : ¬(p.failsafeOob && outOfBand p smp) = true)
    (hlow : p.lowPressure ≤ pressure p smp) (hhigh : pressure p smp ≤ p.highPressure) :
    onFire (conditions p smp true) = false ∧ offFire (conditions p smp true) = false :=
  ⟨Bool.eq_false_iff.mpr fun hon => ((onFire_iff p smp true).mp hon).1.not_ge hlow,
    (offFire_eq_false_iff p smp true).mpr ⟨hhigh, rfl, hband⟩⟩

theorem fires_of_high (hgap : p.lowPressure ≤ p.highPressure) (f : Level) (hhigh : p.highPressure < pressure p smp) :
    onFire (conditions p smp f) = false ∧ offFire (conditions p smp f) = true :=
  ⟨Bool.eq_false_iff.mpr fun hon => ((onFire_iff p smp f).mp hon).1.not_ge (hgap.trans hhigh.le),
    (offFire_iff p smp f).mpr (.inl hhigh)⟩

theorem fires_of_no_flow (p : Params) (smp : Sample) :
    onFire (conditions p smp false) = false ∧ offFire (conditions p smp false) = true := by
  simp [onFire, offFire, conditions]

theorem fires_of_outOfBand (f : Level) (hband : (p.failsafeOob && outOfBand p smp) = true) :
    onFire (conditions p smp f) = false ∧ offFire (conditions p smp f) = true := by
  simp only [onFire, offFire, conditions, hband, Bool.not_true, Bool.and_false, Bool.or_true, and_self]

end Rows

/-! ### What the step does when they fire (R184, R186) -/

section Steps
variable {c : Conditions} (p : Params) (before : PumpState)

theorem turnsOn_of_fires (h : onFire c = true ∧ offFire c = false) :
    nextPump c before = .on ∧ (relayWrites p c before).2 = [⟨.on, settleMs p before .on⟩] := by
  simp [nextPump_eq, relayWrites_eq, h]

theorem turnsOff_of_fires (h : onFire c = false ∧ offFire c = true) :
    nextPump c before = .off ∧ (relayWrites p c before).2 = [⟨.off, settleMs p before .off⟩] := by
  simp [nextPump_eq, relayWrites_eq, h]

theorem holds_of_fires (h : onFire c = false ∧ offFire c = false) :
    nextPump c before = before ∧ (relayWrites p c before).2 = [] := by
  simp [nextPump_eq, relayWrites_eq, h]

end Steps

/-- Settles O34, row by row: which rules fire, and what the step then does. -/
theorem transitionTable : Obligations.TransitionTable := by
  intro smp f s hgap p oob
  refine ⟨_, _, exec_ctrl smp f s, ?_, ?_, ?_, ?_, ?_⟩
  · rintro hband rfl hlow
    obtain ⟨hnext, hwrites⟩ := turnsOn_of_fires s.params s.pump (fires_of_low hgap.le hband hlow)
    exact ⟨hnext, congrArg _ hwrites⟩
  · rintro hband rfl hlow hhigh
    exact holds_of_fires s.params s.pump (fires_of_dead hband hlow hhigh)
  · rintro - - hhigh
    obtain ⟨hnext, hwrites⟩ := turnsOff_of_fires s.params s.pump (fires_of_high hgap.le f hhigh)
    exact ⟨hnext, congrArg _ hwrites⟩
  · rintro - rfl
    obtain ⟨hnext, hwrites⟩ := turnsOff_of_fires s.params s.pump (fires_of_no_flow s.params smp)
    exact ⟨hnext, congrArg _ hwrites⟩
  · intro hband
    obtain ⟨hnext, hwrites⟩ := turnsOff_of_fires s.params s.pump (fires_of_outOfBand f hband)
    exact ⟨hnext, congrArg _ hwrites⟩

/-! ### The relay line (R186, R26) -/

/-- R186: the last write leaves the line at the pump's new state, and without a write both stay. -/
theorem lineAfter_relayWrites (p : Params) (c : Conditions) (before : PumpState) :
    lineAfter before (relayWrites p c before).2 = nextPump c before := by
  rw [relayWrites_eq, nextPump_eq]
  by_cases hon : onFire c = true <;> by_cases hoff : offFire c = true <;> simp [lineAfter, hon, hoff]

/-- R26. -/
theorem relayAsserted_iff (s : State) : relayAsserted s = true ↔ s.pump = .on := decide_eq_true_iff

/-- R26: the electrical level, by polarity. -/
theorem relayLevel_eq (s : State) :
    relayLevel s = if s.pump = .on then s.params.relayActiveHigh else !s.params.relayActiveHigh := by
  by_cases h : s.pump = .on <;> simp [relayLevel, relayAsserted, h]

theorem relayWrites_levels_mem (p : Params) (c : Conditions) (before : PumpState) :
    (relayWrites p c before).2.map RelayWrite.level ∈ [[], [.on], [.off], [.on, .off]] := by
  rw [relayWrites_levels]
  by_cases hon : onFire c = true <;> by_cases hoff : offFire c = true <;> simp [hon, hoff]

/-- R186: On and then Off is written only where both rules fire. -/
theorem relayWrites_levels_eq_on_off_iff (p : Params) (c : Conditions) (before : PumpState) :
    (relayWrites p c before).2.map RelayWrite.level = [.on, .off] ↔ onFire c = true ∧ offFire c = true := by
  rw [relayWrites_levels]
  by_cases hon : onFire c = true <;> by_cases hoff : offFire c = true <;> simp [hon, hoff]

/-- Settles O35: the line follows the writes to the pump's new state, and both rules fire only without a gap. -/
theorem relayLineFollowsThePump : Obligations.RelayLineFollowsThePump := by
  intro smp f s
  have hline := lineAfter_relayWrites s.params (conditions s.params smp f) s.pump
  refine ⟨_, _, exec_ctrl smp f s, rfl, hline, ?_, relayLevel_eq _, relayWrites_levels_mem _ _ _, fun hboth => ?_⟩
  · rw [relayAsserted_iff, controlled_pump, hline]
  · obtain ⟨hon, hoff⟩ := (relayWrites_levels_eq_on_off_iff _ _ _).mp hboth
    by_contra hgap
    exact Bool.false_ne_true ((offFire_eq_false_of_onFire (not_le.mp hgap).le hon).symm.trans hoff)

/-! ### Turning on, the interlock and the dead band (R188, R189, R190) -/

/-- R188: the pump is on after a step when the turn-off rule is silent and the turn-on rule fired or the pump was on. -/
theorem nextPump_eq_on_iff (c : Conditions) (before : PumpState) :
    nextPump c before = .on ↔ offFire c = false ∧ (onFire c = true ∨ before = .on) := by
  rw [nextPump_eq]
  by_cases hon : onFire c = true <;> by_cases hoff : offFire c = true <;> simp [hon, hoff]

/-- Settles O36: the turn-off rule was silent, and from Off the turn-on rule fired. -/
theorem pumpTurnsOnOnlyWithLowPressureAndFlow : Obligations.PumpTurnsOnOnlyWithLowPressureAndFlow := by
  intro smp f s t h hpump
  cases h
  obtain ⟨hoff, hreason⟩ := (nextPump_eq_on_iff _ _).mp hpump
  obtain ⟨hhigh, hflow, hband⟩ := (offFire_eq_false_iff _ _ _).mp hoff
  refine ⟨fun hwasOff => ?_, fun _ => hhigh, hflow, by rwa [← Bool.and_eq_true]⟩
  have hon := hreason.resolve_right (by simp [hwasOff])
  exact ((onFire_iff _ _ _).mp hon).1

/-- Settles O37: only the turn-off rule fires without flow. -/
theorem noFlowForcesThePumpOff : Obligations.NoFlowForcesThePumpOff := by
  intro smp s
  obtain ⟨hnext, hwrites⟩ := turnsOff_of_fires s.params s.pump (fires_of_no_flow s.params smp)
  exact ⟨_, _, exec_ctrl smp false s, hnext, by rw [controlled, hnext, hwrites]⟩

/-- Settles O38: the pressures turn the pump on, hold it, turn it off, hold it and turn it on. -/
theorem deadBandHoldsThePump : Obligations.DeadBandHoldsThePump := by
  intro low dead high s hlowBand hdeadBand hlow hdead hdead' hhigh
  have hgap : s.params.lowPressure ≤ s.params.highPressure := hdead.trans hdead'
  have hturnsOn := fires_of_low hgap (Bool.eq_false_iff.mp hlowBand) hlow
  have hholds := fires_of_dead (Bool.eq_false_iff.mp hdeadBand) hdead hdead'
  have hturnsOff := fires_of_high hgap true hhigh
  obtain ⟨hnext, hwrites⟩ := holds_of_fires s.params s.pump hholds
  refine ⟨by rw [exec_ctrl, controlled, hnext, hwrites], fun _ => ?_⟩
  have hlowStep (before : PumpState) := (turnsOn_of_fires s.params before hturnsOn).1
  have hdeadStep (before : PumpState) := (holds_of_fires s.params before hholds).1
  have hhighStep (before : PumpState) := (turnsOff_of_fires s.params before hturnsOff).1
  simp only [execSeq_ctrl_cons]
  exact ⟨_, rfl, by simp [hlowStep, hdeadStep, hhighStep]⟩

end Sys2Proof.Machine
end

section
/-! PROOFS. Exceptions (60_exceptions.md): an operation against the fault field (R202), the record of an illegal command
(R201), and a step as the performance of the oldest command, which always completes (R200, R240). -/
namespace Sys2Proof.Machine

open Sys2Proof.Claims

/-! ### The fault field (R202) -/

theorem driveClock_withFault (v : Level) (s : State) (f : Option CommandFault) :
    driveClock v { s with fault := f } = { driveClock v s with fault := f } := by
  simp only [driveClock]
  split <;> rfl

theorem driveLatch_withFault (v : Level) (s : State) (f : Option CommandFault) :
    driveLatch v { s with fault := f } = { driveLatch v s with fault := f } := by
  simp only [driveLatch]
  split <;> rfl

/-- Settles O44, operation by operation: no meaning and no net effect mentions the fault field. -/
theorem operationsIgnoreTheFaultField : Obligations.OperationsIgnoreTheFaultField := by
  intro i s f
  cases i with
  | setc v => exact ⟨_, rfl, congrArg Host.Outcome.next (driveClock_withFault v s f)⟩
  | setl v => exact ⟨_, rfl, congrArg Host.Outcome.next (driveLatch_withFault v s f)⟩
  | push b => exact ⟨_, rfl, congrArg Host.Outcome.next (by rw [pushByte_eq, pushByte_eq])⟩
  | latch => exact ⟨_, rfl, congrArg Host.Outcome.next (by rw [latchPulse_eq, latchPulse_eq])⟩
  | rdig j => exact ⟨_, rfl, congrArg Host.Outcome.next (by rw [refreshDigit_eq, refreshDigit_eq]; rfl)⟩
  | rcyc => exact ⟨_, rfl, congrArg Host.Outcome.next (by rw [refreshCycle_eq, refreshCycle_eq]; rfl)⟩
  | enc | fmt | setd | ctrl | conv => exact ⟨_, rfl, rfl⟩

/-! ### An illegal command (R201) -/

/-- R201: the fault field takes a fault only while it is NONE. -/
theorem recordIllegal_eq_ite (f : CommandFault) (w : Word) (s : State) :
    recordIllegal f w s =
      { s with
        fault := if s.fault = none then some f else s.fault
        response := s.response ++ [.fault f w] } := by
  rw [recordIllegal_eq]
  cases s.fault <;> rfl

/-- R66, R201: the operation code alone decides which of the two faults a word has. -/
theorem eq_illegalOpcode_iff_of_decode_error {w : Word} {f : CommandFault} (h : decode w = .error f) :
    f = .illegalOpcode ↔ w.extractLsb' 12 4 ∈ [0x0#4, 0xC#4, 0xD#4, 0xE#4, 0xF#4] := by
  rw [← opOf_eq_none_iff, ← decode_eq_illegalOpcode_iff, h, Except.error.injEq]

/-- Settles O46: an illegal word is recorded, and the two faults are told apart where decoding does. -/
theorem illegalCommandIsRecordedOnly : Obligations.IllegalCommandIsRecordedOnly := by
  refine ⟨fun w f s h => ⟨?_, eq_illegalOpcode_iff_of_decode_error h⟩, rfl, rfl, rfl⟩
  rw [perform_error w f s h, recordIllegal_eq_ite]

/-! ### A step (R6, R200, R240) -/

/-- What ignores the host's side leaves the waiting commands and the finished responses as they were. -/
theorem IgnoresHostSide.keeps {f : State → State} (hf : IgnoresHostSide f) (s : State) :
    (f s).pending = s.pending ∧ (f s).responses = s.responses := by
  obtain ⟨es, -, hfree⟩ := hf s
  have hsame : f s = (f s).withHostSide s.pending (s.response ++ es) s.responses :=
    hfree s.pending s.response s.responses
  rw [hsame]
  exact ⟨rfl, rfl⟩

/-- R200, R201: every command completes, and leaves the queue and the finished responses to the boundaries around it. -/
theorem perform_completes (w : Word) (s : State) :
    ∃ t, perform w s = .next t ∧ t.pending = s.pending ∧ t.responses = s.responses := by
  obtain ⟨f, hf, hfree⟩ := perform_ignoresHostSide w
  exact ⟨f s, hf s, hfree.keeps s⟩

theorem step_of_perform {s t : State} {c : Command} {rest : List Command} (hs : s.pending = c :: rest)
    (h : perform c.word (beginCommand c rest s) = .next t) : step s = .next (finishCommand t) := by
  rw [step_cons s c rest hs, h, finishOutcome]

/-- Settles O49: a step waits, or is a command, which completes, between two boundaries. -/
theorem theBlockNeverStops : Obligations.TheBlockNeverStops := by
  refine ⟨fun i s => ?_, fun s => ?_⟩
  · obtain ⟨t, ht, -⟩ := exec_completes_writesOnly i s
    exact ⟨t, ht⟩
  · cases hs : s.pending with
    | nil => exact ⟨s, step_empty s hs, hs, fun hne => absurd rfl hne⟩
    | cons c rest =>
      obtain ⟨t, ht, hpending, hresponses⟩ := perform_completes c.word (beginCommand c rest s)
      exact ⟨finishCommand t, step_of_perform hs ht, hpending, fun _ =>
        ⟨t.response, congrArg (· ++ [t.response]) hresponses⟩⟩

/-- Settles O45: by its word the oldest command is performed or recorded, and the boundary files its response. -/
theorem stepRunsTheDecodedInstruction : Obligations.StepRunsTheDecodedInstruction := by
  intro s c rest hs
  refine ⟨fun i t hdecode _ hexec => ?_, fun f hdecode => ?_⟩
  · exact step_of_perform hs ((perform_ok c.word i _ hdecode).trans hexec)
  · rw [step_of_perform hs (perform_error c.word f _ hdecode), recordIllegal_eq_ite]
    rfl

end Sys2Proof.Machine
end

section
/-! PROOFS. Hazards (70_reset_and_hazards.md): a latch in the middle of a shift (R234), the start state that a refresh left
displayed (R239), and the wait between commands (R240). -/
namespace Sys2Proof.Machine

open Sys2Proof.Claims

/-! ### A latch after a partial shift (R234, R43) -/

/-- R138: rounds of data, clock low and clock high ahead of other operations. -/
theorem execSeq_shiftLevels (bits : List Level) (rest : List Instr) (s : State) :
    execSeq ((bits.flatMap fun d => [.setd d, .setc false, .setc true]) ++ rest) s =
      execSeq rest (bits.foldl (fun t d => shiftBit d t) s) := by
  induction bits generalizing s with
  | nil => rfl
  | cons d bits ih => exact ih (shiftBit d s)

/-- R131: each round shifts its level into the chain, whatever the lines were. -/
theorem foldl_shiftBit_chain (bits : List Level) (s : State) :
    (bits.foldl (fun t d => shiftBit d t) s).chain = bits.foldl shiftIn s.chain :=
  (List.foldl_hom State.chain fun t d => by rw [shiftBit_eq]).symm

/-- R43: the last level shifted in is in bit 0, and the old bits stand above the new ones. By the last shift: bit 0 is its level,
and every other bit is the one below it before. -/
theorem getLsbD_foldl_shiftIn (bits : List Level) (chain : Word) (n : Nat) (hn : n < 16) :
    (bits.foldl shiftIn chain).getLsbD n =
      if n < bits.length then bits.getD (bits.length - 1 - n) false else chain.getLsbD (n - bits.length) := by
  induction bits using List.reverseRecOn generalizing n with
  | nil => rfl
  | append_singleton bits d ih =>
    rw [List.foldl_concat, getLsbD_shiftIn _ _ n hn, List.length_append, List.length_singleton]
    cases n with
    | zero => simp
    | succ m =>
      rw [if_neg m.succ_ne_zero, Nat.add_sub_cancel, ih m (by omega)]
      by_cases hm : m < bits.length
      · rw [if_pos hm, if_pos (by omega), List.getD_append _ _ _ _ (by omega)]
        congr 1
        omega
      · rw [if_neg hm, if_neg (by omega), Nat.add_sub_add_right]

/-- Settles O22: the rounds shift the chain, and the latch pulse copies it to the outputs. -/
theorem latchAfterAPartialShift : Obligations.LatchAfterAPartialShift := by
  intro bits s _
  refine ⟨latchPulse (bits.foldl (fun t d => shiftBit d t) s), execSeq_shiftLevels bits [.latch] s, ?_⟩
  rw [latchPulse_eq]
  refine ⟨rfl, fun n => ?_⟩
  rw [foldl_shiftBit_chain, getLsbD_foldl_shiftIn bits s.chain n n.isLt]

/-! ### What a run keeps (R32, R132) -/

/-- R32, R132: from `s` to `t` the parameters are kept and the display trace has only grown; where it has not, neither has
`Q` been written. -/
structure LatchesAreTraced (s t : State) : Prop where
  params : t.params = s.params
  trace : ∃ qs, displayTrace t = displayTrace s ++ qs ∧ (qs = [] → t.q = s.q)

theorem LatchesAreTraced.refl (s : State) : LatchesAreTraced s s :=
  ⟨rfl, [], (List.append_nil _).symm, fun _ => rfl⟩

theorem LatchesAreTraced.trans {s t u : State} (h : LatchesAreTraced s t) (h' : LatchesAreTraced t u) :
    LatchesAreTraced s u := by
  obtain ⟨hparams, qs, htrace, hq⟩ := h
  obtain ⟨hparams', qs', htrace', hq'⟩ := h'
  refine ⟨hparams'.trans hparams, qs ++ qs', by rw [htrace', htrace, List.append_assoc], fun hnil => ?_⟩
  obtain ⟨hqs, hqs'⟩ := List.append_eq_nil_iff.mp hnil
  exact (hq' hqs').trans (hq hqs)

theorem LatchesAreTraced.q_eq {s t : State} (h : LatchesAreTraced s t) (hsame : displayTrace t = displayTrace s) :
    t.q = s.q := by
  obtain ⟨qs, htrace, hq⟩ := h.trace
  exact hq (List.self_eq_append_right.mp (hsame.symm.trans htrace))

/-- Issuing changes the queue alone (log entry 2). -/
theorem issue_latchesAreTraced (cs : List Command) (s : State) : LatchesAreTraced s (issue cs s) :=
  ⟨rfl, (LatchesAreTraced.refl s).trace⟩

theorem step_latchesAreTraced {s t : State} (h : step s = .next t) : LatchesAreTraced s t := by
  obtain ⟨-, hparams, -⟩ := faultIsSticky s t h
  exact ⟨hparams, step_displayTrace s t h⟩

theorem runCommands_latchesAreTraced {cs : List Command} {s t : State} (h : runCommands cs s = .next t) :
    LatchesAreTraced s t := by
  induction cs generalizing s with
  | nil =>
    obtain rfl := Host.Outcome.next.inj h
    exact .refl s
  | cons c rest ih =>
    obtain ⟨-, hsteps⟩ := theBlockNeverStops
    obtain ⟨u, hu, -⟩ := hsteps (issue [c] s)
    have hissue : LatchesAreTraced s (issue [c] s) := issue_latchesAreTraced [c] s
    exact (hissue.trans (step_latchesAreTraced hu)).trans (ih ((runCommands_cons hu rest).symm.trans h))

/-- R6, R240: a run completes with no command waiting, and further commands go on from where it ended. -/
theorem runCommands_append (cs : List Command) {s : State} (hs : s.pending = []) :
    ∃ t, t.pending = [] ∧ ∀ rest, runCommands (cs ++ rest) s = runCommands rest t := by
  induction cs generalizing s with
  | nil => exact ⟨s, hs, fun _ => rfl⟩
  | cons c cs ih =>
    obtain ⟨u, hu, hstep⟩ := step_issue_cons c s hs
    obtain ⟨t, ht, hrest⟩ := ih hu
    have hfirst : step (issue [c] s) = .next u := by rw [hstep, issue_nil]
    exact ⟨t, ht, fun rest => (runCommands_cons hfirst (cs ++ rest)).trans (hrest rest)⟩

/-! ### The displayed start state (R239) -/

theorem digSel_slotPattern (s : State) (j : Slot) : digSel (slotPattern s j) = s.params.sel[j.toNat] :=
  digSel_append _ _

/-- R150, R152: a refresh leaves one slot's pattern on the outputs, an RCYC that of slot 3. -/
theorem IsRefresh.exec_q {w : Word} (h : IsRefresh w) (s : State) :
    ∃ i t j, decode w = .ok i ∧ exec i s = .next t ∧ t.q = slotPattern s j := by
  obtain ⟨j, hw⟩ | hw := h
  · exact ⟨.rdig j, refreshDigit j s, j, hw, rfl, refreshDigit_q j s⟩
  · exact ⟨.rcyc, refreshCycle s, 3, hw, rfl, by rw [refreshCycle_eq]; rfl⟩

theorem runCommands_refresh_q {c : Command} {s t : State} (hs : s.pending = []) (hc : IsRefresh c.word)
    (h : runCommands [c] s = .next t) : ∃ j, t.q = slotPattern s j := by
  obtain ⟨i, u, j, hdecode, hexec, hq⟩ := hc.exec_q (beginCommand c [] s)
  have hrun : runCommands [c] s = .next (finishCommand u) := runCommands_cons_of_exec hs hdecode hexec []
  obtain rfl := Host.Outcome.next.inj (h.symm.trans hrun)
  exact ⟨j, hq⟩

/-- R239: the outputs still hold the pattern of the refresh, taken from the state in which it was issued. -/
theorem LastLatchedByRefresh.q_eq {s₀ s : State} {cs : List Command} (h : LastLatchedByRefresh s₀ cs s) :
    ∃ v j, s.params = v.params ∧ s.q = slotPattern v j := by
  obtain ⟨hs₀, before, c, after, u, -, hc, hbefore, hafter, hsame⟩ := h
  obtain ⟨v, hv, hrest⟩ := runCommands_append before hs₀
  have hrefresh : runCommands [c] v = .next u := (hrest [c]).symm.trans hbefore
  obtain ⟨j, hq⟩ := runCommands_refresh_q hv hc hrefresh
  have hlast : LatchesAreTraced u s := runCommands_latchesAreTraced hafter
  have hparams : u.params = v.params := (runCommands_latchesAreTraced hrefresh).params
  exact ⟨v, j, hlast.params.trans hparams, (hlast.q_eq hsame).trans hq⟩

/-- Settles O58: the outputs are one slot's pattern, and the parameters are those its select byte came from. -/
theorem displayedStateEnablesOneDigit : Obligations.DisplayedStateEnablesOneDigit := by
  rintro b s₀ cs s ⟨hbuf, hlatched⟩
  obtain ⟨v, j, hparams, hq⟩ := hlatched.q_eq
  rw [hq, hparams]
  exact ⟨hbuf, j, digSel_slotPattern v j, fun hsel k => digitEnabled_slotPattern hsel j k⟩

/-! ### The wait (R155, R240) -/

/-- Settles O48: the step with an empty queue is the wait. -/
theorem noCommandNoChange : Obligations.NoCommandNoChange := step_empty

end Sys2Proof.Machine
end
